-- ==== Sys2Proof/Word.lean ====
section
/-! DEFINITION. The widths of the TB426: a word, a word address and a byte of the port (R1, R3). -/

namespace Sys2Proof

/-- A word of the exchange memory or of a register: 32 bits (R1). -/
abbrev Word := BitVec 32

/-- A word address of the port: 16 bits (R1, R3). -/
abbrev Addr := BitVec 16

/-- A byte: the command byte of a transaction (R1), or the data of a field link character (R90). -/
abbrev Byte := BitVec 8

end Sys2Proof
end

