-- ==== Sys2Proof/Config.lean ====
section
/-! DEFINITION. What the part fixes for every run: the identity word, the lines of its address map and the
capacities of its tables.

The manual leaves no value of an effect open, so there is no free value here: every quantity the part
computes is given by a rule, and where two events fall together the order of the commands in the queue says
which is taken first (R2, R42). -/

namespace Sys2Proof.Config

/-- ID: family code 0x0D7, part code 0x426, revision 0x01 (R15, layouts 13.2). -/
def idWord : Word := 0x0D742601

/-- The READ command byte (layouts 13.2). -/
def readByte : Byte := 0x3C

/-- The WRITE command byte (layouts 13.2). -/
def writeByte : Byte := 0xC3

/-- A zone stack holds at most four entries (R45, R59). -/
def stackCapacity : Nat := 4

/-- The stamp of 2099-12-31 23:59, the last minute of the calendar (R75). -/
def lastStamp : Nat := 52595999

/-- Seconds from 2000-01-01 00:00:00 to the end of 2099 (R75, R76): 36,525 days. -/
def calendarSeconds : Nat := 3155760000

/-- The filter count of every status line while no configuration is committed (R119). -/
def unconfiguredFilterCount : Nat := 15

/-- A milliseconds tick adds 32,768 thousandths of a crystal cycle; a second is 32,768 cycles (R75). -/
def dividerPerMs : Nat := 32768

/-- The divider's modulus, in thousandths of a crystal cycle (R75). -/
def dividerModulus : Nat := 32768000

end Sys2Proof.Config
end

