-- ==== Sys2Proof/Syntax.lean ====
section
/-! DEFINITION. The commands of the TB426: one constructor for each row of spec/opcode_table.json, in the
table's order, with the operands the row's rule gives it. -/

namespace Sys2Proof

/-- The five thermal zones, in the manual's order 0..4 (Units and number conventions). -/
inductive Zone where
  | packA | packB | drive | cab | berth
  deriving DecidableEq, Repr

/-- The three status lines (R118). -/
inductive Line where
  | hvok | clvl | chgp
  deriving DecidableEq, Repr

/-- A directive slot, 0..23. -/
abbrev Slot := Fin 24

/-- The parameter of a CTRL write, its upper three bytes (R16). -/
abbrev CtrlParam := BitVec 24

/-- The commands: the host's accesses at the port, the events of the part's own timers and operations, and
the arrivals on its pins. -/
inductive Instr where
  /-- POWER_ON_RESET (R19): RESETn asserted or power first applied. -/
  | powerOnReset
  /-- BAD_COMMAND (R1): a command byte that is neither READ nor WRITE. -/
  | badCommand (byte : Byte)
  /-- TRANSACTION_END (R1): SSn rises. -/
  | transactionEnd
  /-- HOST_READ_WORD (R2): the access event of one READ word. -/
  | hostReadWord (addr : Addr)
  /-- HOST_WRITE_WORD (R4): the access event of one WRITE word with no row of its own. -/
  | hostWriteWord (addr : Addr) (value : Word)
  /-- COMMIT (R6, R121): a host write to the vehicle commit word. -/
  | commit (value : Word)
  /-- CAUSE_WRITE (R17). -/
  | causeWrite (value : Word)
  /-- CMASK_WRITE (R18). -/
  | cmaskWrite (value : Word)
  /-- UNKNOWN_ACTION (R16): a CTRL write whose code is not an action; the whole word. -/
  | unknownAction (value : Word)
  /-- MODE_ACTIVE (R20), with the ignored parameter that CTRL stores. -/
  | modeActive (param : CtrlParam)
  /-- MODE_PARKED (R23). -/
  | modeParked (param : CtrlParam)
  /-- QUIESCE (R26). -/
  | quiesce (param : CtrlParam)
  /-- CONFIGURE (R28, R29). -/
  | configure (param : CtrlParam)
  /-- PORT_RESET (R30). -/
  | portReset (param : CtrlParam)
  /-- LINK_RESET (R108). -/
  | linkReset (param : CtrlParam)
  /-- CLEAR_FAULTS (R160). -/
  | clearFaults (param : CtrlParam)
  /-- LOCK_LIMITS (R175): bits 4..0 of the parameter are the zone mask. -/
  | lockLimits (param : CtrlParam)
  /-- TIME_SET (R78). -/
  | timeSet (param : CtrlParam)
  /-- TIME_NUDGE (R79). -/
  | timeNudge (param : CtrlParam)
  /-- POST (R36, R37) on a slot. -/
  | post (slot : Slot)
  /-- AMEND (R38). -/
  | amend (slot : Slot)
  /-- RETRACT (R39, R40). -/
  | retract (slot : Slot)
  /-- RELEASE (R41). -/
  | release (slot : Slot)
  /-- SLOT_UNKNOWN_ACTION (R35): a nonzero control word that is no action code. -/
  | slotUnknownAction (slot : Slot) (value : Word)
  /-- SECOND_ROLLOVER (R75). -/
  | secondRollover
  /-- CLOCK_PAGE_REWRITE_COMPLETION (R14). -/
  | clockPageRewriteCompletion
  /-- WAKE_TIMEOUT (R32). -/
  | wakeTimeout
  /-- PERIOD_EXPIRY (R124). -/
  | periodExpiry
  /-- PASS_COMPLETION (R127). -/
  | passCompletion
  /-- PUBLICATION_COMPLETION (R12). -/
  | publicationCompletion
  /-- GRANT_TIMEOUT (R122). -/
  | grantTimeout
  /-- LINE_SAMPLE (R118): one sample of one line, `true` for asserted. -/
  | lineSample (line : Line) (level : Bool)
  /-- REQUEST_START (R91): the start bit of a request's address character. -/
  | requestStart
  /-- REPLY_CHARACTER (R96): a character at the end of its stop bit. -/
  | replyCharacter (data : Byte) (mark : Bool) (stop : Bool)
  /-- REPLY_WINDOW_EXPIRY (R95). -/
  | replyWindowExpiry
  /-- GAP_TIMEOUT (R95). -/
  | gapTimeout
  /-- LINE_IDLE (R97). -/
  | lineIdle
  /-- ERROR_BOUND (R97). -/
  | errorBound
  /-- BREAK_COMPLETION (R106). -/
  | breakCompletion
  /-- PREAMBLE_COMPLETION (R106). -/
  | preambleCompletion
  /-- PREPARE_END (R179). -/
  | prepareEnd
  /-- MELT_TIME_LIMIT (R180). -/
  | meltTimeLimit
  /-- DRIP_END (R179). -/
  | dripEnd
  /-- RESTORE_END (R187). -/
  | restoreEnd
  /-- SUSPEND_TIME_LIMIT (R185). -/
  | suspendTimeLimit
  /-- SSN_FALL (R1). -/
  | ssnFall
  /-- RESETN_RELEASE (R118). -/
  | resetnRelease
  /-- REQUEST_LAST_STOP_BIT_END (R95). -/
  | requestLastStopBitEnd
  /-- START_BIT (R95). -/
  | startBit
  deriving DecidableEq, Repr

end Sys2Proof
end

