-- ==== Sys2Proof/WellFormed.lean ====
section
/-! DEFINITION. Which commands are well formed: a command of a row stands for what that row is about, so a
word that has a row of its own is not a HOST_WRITE_WORD. The meanings are total all the same: an ill-formed
command is taken as the access it spells. -/

namespace Sys2Proof

/-- The slot whose control word an address is: 0x300 + 16n for n in 0..23 (R4, R7). -/
def WellFormed.controlWordOf (a : Addr) : Option Slot :=
  let n := (a.toNat - 0x300) / 16
  if h : n < 24 then if 0x300 ≤ a.toNat ∧ a.toNat % 16 = 0 then some ⟨n, h⟩ else none else none

/-- A WRITE of a word has no row of its own: it is no commit, no write to CAUSE or CMASK, no action at CTRL
and no action on a slot. -/
def WellFormed.plainWrite (a : Addr) (v : Word) : Bool :=
  a != 0x021F && a != 0x1003 && a != 0x1004
    && (a != 0x1001 || v.toNat % 256 == 0)
    && ((WellFormed.controlWordOf a).isNone || v == 0)

/-- The checks of a command. -/
def Instr.wf : Instr → Bool
  | .badCommand byte => byte != Config.readByte && byte != Config.writeByte
  | .hostWriteWord addr value => WellFormed.plainWrite addr value
  | .unknownAction value => decide (10 < value.toNat % 256)
  | .slotUnknownAction _ value => decide (4 < value.toNat)
  | .powerOnReset | .transactionEnd | .hostReadWord _ | .commit _ | .causeWrite _ | .cmaskWrite _
  | .modeActive _ | .modeParked _ | .quiesce _ | .configure _ | .portReset _ | .linkReset _
  | .clearFaults _ | .lockLimits _ | .timeSet _ | .timeNudge _ | .post _ | .amend _ | .retract _
  | .release _ | .secondRollover | .clockPageRewriteCompletion | .wakeTimeout | .periodExpiry
  | .passCompletion | .publicationCompletion | .grantTimeout | .lineSample _ _ | .requestStart
  | .replyCharacter _ _ _ | .replyWindowExpiry | .gapTimeout | .lineIdle | .errorBound
  | .breakCompletion | .preambleCompletion | .prepareEnd | .meltTimeLimit | .dripEnd | .restoreEnd
  | .suspendTimeLimit | .ssnFall | .resetnRelease | .requestLastStopBitEnd | .startBit => true

end Sys2Proof
end

