-- ==== Sys2Proof/Decode.lean ====
section
/-! DEFINITION. The commands that a word spells by the opcode table's bits. No row of
spec/opcode_table.json gives bits ("fields" is empty and there is no "fixed" in any of its 49 rows): a
command is an event at a pin, a timer or the port, not a word in a memory. So no word spells one. -/

namespace Sys2Proof

/-- The command a word spells by the table's bits: none, for every word, since no row of the table gives
bits. -/
def decodeTableWord (nbits w : Nat) : Option Instr :=
  match nbits, w with
  | _, _ => none

end Sys2Proof
end

