-- ==== Sys2Proof/Machine/Tables.lean ====
section
/-! DEFINITION. The three shapes the part's tables have: one item for each zone, one for each status line, and
a numbered table (a vector). -/

namespace Sys2Proof.Machine

/-- One item for each zone. -/
structure Zones (α : Type) where
  packA : α
  packB : α
  drive : α
  cab : α
  berth : α
  deriving DecidableEq, Repr

/-- The item of a zone. -/
def zget {α : Type} (t : Zones α) : Zone → α
  | .packA => t.packA
  | .packB => t.packB
  | .drive => t.drive
  | .cab => t.cab
  | .berth => t.berth

/-- The table with one zone's item replaced. -/
def zset {α : Type} (t : Zones α) (z : Zone) (x : α) : Zones α :=
  match z with
  | .packA => { t with packA := x }
  | .packB => { t with packB := x }
  | .drive => { t with drive := x }
  | .cab => { t with cab := x }
  | .berth => { t with berth := x }

/-- The table of a function of the zone. -/
def zmk {α : Type} (f : Zone → α) : Zones α :=
  ⟨f .packA, f .packB, f .drive, f .cab, f .berth⟩

/-- The zones in order 0..4. -/
def allZones : List Zone := [.packA, .packB, .drive, .cab, .berth]

/-- A zone's number. -/
def zoneNumber : Zone → Nat
  | .packA => 0
  | .packB => 1
  | .drive => 2
  | .cab => 3
  | .berth => 4

/-- The zone of a number, when it is 0..4. -/
def zoneOfNumber : Nat → Option Zone
  | 0 => some .packA
  | 1 => some .packB
  | 2 => some .drive
  | 3 => some .cab
  | 4 => some .berth
  | _ => none

/-- PACK_A and PACK_B, the zones with charge fields (R163, R171). -/
def isPack : Zone → Bool
  | .packA | .packB => true
  | .drive | .cab | .berth => false

/-- The zones of a mask that holds bit z for zone z (layouts 13.3). -/
def zonesOfMask (mask : Nat) : List Zone :=
  allZones.filter fun z => mask.testBit (zoneNumber z)

/-- One item for each status line. -/
structure Lines (α : Type) where
  hvok : α
  clvl : α
  chgp : α
  deriving DecidableEq, Repr

/-- The item of a line. -/
def lget {α : Type} (t : Lines α) : Line → α
  | .hvok => t.hvok
  | .clvl => t.clvl
  | .chgp => t.chgp

/-- The table with one line's item replaced. -/
def lset {α : Type} (t : Lines α) (l : Line) (x : α) : Lines α :=
  match l with
  | .hvok => { t with hvok := x }
  | .clvl => { t with clvl := x }
  | .chgp => { t with chgp := x }

/-- A vector with every item replaced by a function of its number and itself. -/
def vmap {α β : Type} {n : Nat} (v : Vector α n) (f : Fin n → α → β) : Vector β n :=
  Vector.ofFn fun i => f i (v.get i)

/-- A vector with one item replaced. -/
def vset {α : Type} {n : Nat} (v : Vector α n) (i : Fin n) (x : α) : Vector α n :=
  v.set i.val x i.isLt

/-- A vector's items with their numbers, in order. -/
def vlist {α : Type} {n : Nat} (v : Vector α n) : List (Fin n × α) :=
  (List.finRange n).map fun i => (i, v.get i)

end Sys2Proof.Machine
end

