-- ==== Sys2Proof/Machine/State.lean ====
section
/-! DEFINITION. The state of the TB426, block by block, as plain data; the reasons a step could stop; and the
state right after reset. -/

namespace Sys2Proof.Machine

/-! ## Names the manual gives to values -/

/-- The device states (R19). -/
inductive DeviceState where
  | unconfigured | parked | starting | active | parking | quiescing
  deriving DecidableEq, Repr

/-- The period lock states (R125). -/
inductive LockState where
  | off | locked | lockLost
  deriving DecidableEq, Repr

/-- The CTRL actions (R16, layouts 13.2). -/
inductive CtrlAction where
  | modeActive | modeParked | configure | quiesce | portReset | linkReset | clearFaults | lockLimits
  | timeSet | timeNudge
  deriving DecidableEq, Repr

/-- The last action STAT shows (R15, R16): none, an action, or the mark of an unknown code. -/
inductive LastAction where
  | none
  | action (a : CtrlAction)
  | unknown
  deriving DecidableEq, Repr

/-- The last result STAT shows (layouts 13.2). -/
inductive CtrlResult where
  | none | inProgress | done | wrongState | busy | unknownAction | badTable | dupAddress | badRef
  | lockedLimits | badTime
  deriving DecidableEq, Repr

/-- The kinds of the access record (R8). -/
inductive AccessKind where
  | none | unmapped | writeOwned | writeHeld | writeFrozen | readInWindow | badCommand
  deriving DecidableEq, Repr

/-- The cause flags, in the order of their bits (R17). -/
inductive CauseFlag where
  | slotEnd | report | advisory | fault | wake | access | stale | line | ctrlDone
  deriving DecidableEq, Repr

/-- The direction of a transaction: READ or WRITE (R1). -/
inductive Direction where
  | read | write
  deriving DecidableEq, Repr

/-- The serial port between two falls of SSn (R1). -/
inductive PortPhase where
  /-- SSn is high: the port waits for its next fall. -/
  | waiting
  /-- SSn has fallen: the command byte and the address are being received. -/
  | command
  /-- A command byte that is neither READ nor WRITE has made the transaction void. -/
  | void
  /-- Words are being transferred: the transaction's direction, and the address of its next word. -/
  | words (dir : Direction) (next : Addr)
  deriving DecidableEq, Repr

/-- A directive's class (layouts 13.5). -/
inductive Class where
  | a | b | c
  deriving DecidableEq, Repr

/-- An allotment class: the internal class P stands above A (R71). -/
inductive AllotClass where
  | p | a | b | c
  deriving DecidableEq, Repr

/-- The kinds of directive. -/
inductive Kind where
  | setpoint | reach | procedure
  deriving DecidableEq, Repr

/-- The combine modes (R63). -/
inductive Combine where
  | replace | blend | floor | ceiling
  deriving DecidableEq, Repr

/-- A start condition, with its parameters in use (directive record, 3.1). -/
inductive Start where
  | now
  | at (stamp : Nat)
  | daily (minuteOfDay : Nat) (weekdays : Nat)
  | after (minutes : Nat)
  | onLine (line : Line)
  deriving DecidableEq, Repr

/-- An end condition, with its parameters in use. -/
inductive End where
  | none
  | at (stamp : Nat)
  | duration (minutes : Nat)
  | settled (passes : Nat)
  deriving DecidableEq, Repr

/-- The slot states (R34). -/
inductive SlotState where
  | empty | pending | waiting | active | ended
  deriving DecidableEq, Repr

/-- Why a directive waits (R34). -/
inductive Reason where
  | stackFull | parked
  deriving DecidableEq, Repr

/-- The outcomes (R34). -/
inductive Outcome where
  | completed | expired | reached | late | retracted | aborted | refused | quiesced | noWake
  deriving DecidableEq, Repr

/-- A slot's result item (R35, layouts 13.5). -/
inductive SlotResult where
  | none | done | refusedState | refusedMode | refusedKind | unknownAction | badKind | badZone | badClass
  | badCombine | badStart | badEnd | badStamp | unsetClock | past | busy | notActive
  deriving DecidableEq, Repr

/-- The met item of a REACH (R52). -/
inductive Met where
  | notYet | met | notMet
  deriving DecidableEq, Repr

/-- The last run outcome of a DAILY directive (R34). -/
inductive RunOutcome where
  | completed | expired | aborted
  deriving DecidableEq, Repr

/-- The kinds of node (layouts 13.3). -/
inductive NodeKind where
  | sensor | actuator | mixed
  deriving DecidableEq, Repr

/-- The node states (R98). -/
inductive NodeState where
  | unknown | online | missing | failed
  deriving DecidableEq, Repr

/-- The reply error kinds (R96). -/
inductive MissKind where
  | noReply | frame | mark | address | length | check | gap | status
  deriving DecidableEq, Repr

/-- The channel states (R112). -/
inductive ChannelState where
  | none | fresh | held | failed
  deriving DecidableEq, Repr

/-- How a zone's channels make its measurement (R114). -/
inductive Aggregation where
  | max | mean | first
  deriving DecidableEq, Repr

/-- What an actuator follows (R150). -/
inductive Source where
  | compressorLoad | heaterLoad | radiatorLoad
  | zoneHeat | zoneCool | zoneAny
  deriving DecidableEq, Repr

/-- The six paths of heat, in the order of the zone table (R131). -/
inductive Path where
  | source | sink | radiate | chill | pump | resistive
  deriving DecidableEq, Repr

/-- The aim case of an actuator (R152). -/
inductive AimCase where
  | load | defrost | rest
  deriving DecidableEq, Repr

/-- The actuator fault kinds, in the order in which they are recorded (R159). -/
inductive FaultKind where
  | nodeFailed | stall | overtemp | nodeFault | tracking
  deriving DecidableEq, Repr

/-- The zone states (R169). -/
inductive ZoneState where
  | idle | normal | protect | hard | degraded
  deriving DecidableEq, Repr

/-- The run states of a defrost (R177). -/
inductive RunState where
  | idle | prepare | melt | drip | restore | suspended
  deriving DecidableEq, Repr

/-- The remembered phase of a suspended run (R177). -/
inductive RememberedPhase where
  | melt | drip
  deriving DecidableEq, Repr

/-- What started a run (R177). -/
inductive Origin where
  | auto
  | slot (n : Slot)
  deriving DecidableEq, Repr

/-- The abort causes (R186); QUIESCE stands only in the last-run record (R188). -/
inductive AbortCause where
  | retract | parking | hvok | suspendTime | quiesce
  deriving DecidableEq, Repr

/-! ## The committed configuration -/

/-- One flag for each path. -/
structure Paths where
  source : Bool
  sink : Bool
  radiate : Bool
  chill : Bool
  pump : Bool
  resistive : Bool
  deriving DecidableEq, Repr

/-- A node table entry. A code outside its encoding is `none` (refused by check 1). -/
structure NodeCfg where
  enable : Bool
  kind : Option NodeKind
  address : Nat
  deriving DecidableEq, Repr

/-- A channel table entry (R110). -/
structure ChannelCfg where
  enable : Bool
  node : Nat
  index : Nat
  plausLo : Int
  plausHi : Int
  deriving DecidableEq, Repr

/-- The limit fields of a zone record (R163); the cold fields of a zone that is no pack are no limits and
stand at 0. -/
structure Limits where
  tmin : Int
  tmax : Int
  softHi : Int
  hardHi : Int
  lowProtect : Int
  margin : Int
  hysteresis : Int
  riseStep : Int
  coldZero : Int
  coldFull : Int
  deriving DecidableEq, Repr

/-- A zone table entry (R114, R128 to R131, R163, R87). -/
structure ZoneCfg where
  /-- The channel list, as long as the count field says. -/
  channels : List Nat
  agg : Option Aggregation
  paths : Paths
  limits : Limits
  kp : Int
  ki : Int
  imax : Int
  hmax : Int
  cmax : Int
  fbDemand : Int
  fbClass : Option Class
  fbWeight : Nat
  fbPower : Int
  fbCharge : Int
  lag : Nat
  leadMargin : Nat
  deriving DecidableEq, Repr

/-- An actuator table entry (R150). -/
structure ActCfg where
  enable : Bool
  node : Nat
  output : Nat
  source : Option Source
  /-- The zones of the source's mask. -/
  zones : List Zone
  base : Int
  gain : Int
  min : Int
  max : Int
  slew : Int
  rest : Int
  defrost : Option Int
  tolerance : Int
  pump : Bool
  cap : Int
  /-- The essential-for set: bit 6z + p for zone z and path p. -/
  essential : Nat
  deriving DecidableEq, Repr

/-- The plant table (R128, 11.1, R117). -/
structure Plant where
  pcomp : Int
  pheat : Int
  copr : Int
  copc : Int
  coph : Int
  recoveryEnable : Bool
  autoDefrost : Bool
  autoSuspendable : Bool
  tmaxHeat : Int
  hpMinAmb : Int
  krad : Int
  fmax : Int
  frostTemp : Int
  frostLimit : Int
  /-- The designated channels: 31 for absent. -/
  radInlet : Nat
  ambient : Nat
  evapOutlet : Nat
  prepareTime : Nat
  dripTime : Nat
  meltMax : Nat
  restoreTime : Nat
  meltEnd : Int
  meltPower : Int
  resumeDelay : Nat
  suspendMax : Nat
  deriving DecidableEq, Repr

/-- A configuration, as CONFIGURE reads it from the area (R28). -/
structure Cfg where
  /-- The balance period in milliseconds. -/
  period : Nat
  lockEnable : Bool
  divisor : Nat
  /-- Minutes. -/
  wakeTimeout : Nat
  /-- Minutes. -/
  catchWindow : Nat
  /-- Seconds. -/
  grantTimeout : Nat
  /-- Watts. -/
  floorGrant : Int
  /-- The bit rate code, 0..2; 3 is outside the encoding. -/
  bitRate : Nat
  missLimit : Nat
  holdLimit : Nat
  filterCount : Lines Nat
  nodes : Vector NodeCfg 30
  channels : Vector ChannelCfg 16
  zones : Zones ZoneCfg
  acts : Vector ActCfg 12
  plant : Plant
  deriving DecidableEq, Repr

/-! ## The blocks -/

/-- The host-written words of the exchange memory: (address, word) pairs, addresses strictly rising, no entry
equal to 0, which is what an unlisted word reads as (R4: every word is 0 at power-on reset). The unit is the
word, the smallest the port can address. -/
abbrev Memory := List (Nat × Word)

/-- The Port Interface (R1, R8, R11, R12, R15 to R18). -/
structure PI where
  /-- The serial port within its transaction (R1). -/
  port : PortPhase
  /-- The word taken at the last access event of a READ, whose bits SDO sends (R1, R2; `sdoAt` gives the line's level);
  0 after every other event of the port. -/
  sdo : Word
  accessKind : AccessKind
  accessAddr : Addr
  cause : BitVec 9
  cmask : BitVec 9
  ctrl : Word
  busy : Bool
  lastAction : LastAction
  lastResult : CtrlResult
  /-- The divisor count (R11). -/
  divisorCount : Nat
  /-- A publication in flight: the words 0x601 to 0x7FF as taken at its start (R12). -/
  publication : Option (List Word)
  /-- The report area 0x600 to 0x7FF as the last completed publication wrote it. -/
  report : List Word
  deriving DecidableEq, Repr

/-- The Mode Controller (R19, R31). -/
structure MC where
  state : DeviceState
  config : Option Cfg
  /-- The wake line, `true` for asserted. -/
  wake : Bool
  /-- Milliseconds until the wake timer expires; `none` while it is stopped. -/
  wakeTimer : Option Nat
  deriving DecidableEq, Repr

/-- The working record of a slot (R34): the values in use and the counts. Its place in a stack or wait list,
and the order of placement within its class, are its position in the lists of `DU`. -/
structure Working where
  kind : Kind
  zone : Zone
  cls : Class
  weight : Nat
  combine : Combine
  /-- `none` where the kind or the combine does not use it (R33). -/
  alpha : Option Nat
  target : Int
  halfBand : Int
  start : Start
  ending : End
  deadline : Nat
  holdAfter : Nat
  wake : Bool
  suspendable : Bool
  /-- Minute events since the directive became due (R50). -/
  durationCount : Nat
  settledCount : Nat
  afterCount : Nat
  /-- The lead last computed, in minutes (R87). -/
  lead : Nat
  /-- A RETRACT has been taken on the ACTIVE PROCEDURE (R40). -/
  retracted : Bool
  deriving DecidableEq, Repr

/-- A slot: its status items (R34) and its working record. Control, body and amend words stand in the
exchange memory. -/
structure SlotRec where
  state : SlotState
  reason : Option Reason
  outcome : Option Outcome
  result : SlotResult
  due : Option Nat
  placed : Bool
  met : Met
  runCount : Nat
  lastRun : Option RunOutcome
  /-- A date, in days since 2000-01-01. -/
  firedOn : Option Nat
  suspendCount : Nat
  work : Option Working
  deriving DecidableEq, Repr

/-- The Directive Unit (R34, R45, R47). -/
structure DU where
  slots : Vector SlotRec 24
  /-- Each zone's stack, top to bottom (R59). -/
  stack : Zones (List Slot)
  /-- Each zone's wait list, head first (R47). -/
  wait : Zones (List Slot)
  deriving DecidableEq, Repr

/-- The Calendar Clock (R75, R76, R80). -/
structure CC where
  /-- The calendar time, as seconds since 2000-01-01 00:00:00. Year, month, date, hour, minute and second are
  its digits. -/
  time : Nat
  /-- The crystal divider, in thousandths of a cycle. -/
  divider : Nat
  /-- The clock-set flag, `true` for SET. -/
  set : Bool
  /-- The minute event count, modulo 2^32. -/
  minuteEvents : Word
  /-- A clock page rewrite in flight: the page as taken at its start (R14). -/
  rewrite : Option (List Word)
  /-- A further rewrite is due when the one in flight completes (R14). -/
  rewriteDue : Bool
  /-- The clock page 0x800 to 0x80F as the last completed rewrite wrote it. -/
  page : List Word
  deriving DecidableEq, Repr

/-- A node record (R98). -/
structure NodeRec where
  state : NodeState
  misses : Nat
  good : Nat
  lastError : Option MissKind
  deriving DecidableEq, Repr

/-- What the line is doing (R95 to R97, R106, R109). -/
inductive LinkWork where
  /-- No work. -/
  | off
  /-- The 30-bit break. -/
  | brk
  /-- The 24-bit preamble. -/
  | preamble
  /-- On, between sweeps. -/
  | waiting
  /-- A sweep is in flight and the next request's start bit is due. -/
  | due
  /-- A request is being sent: its 11-bit characters, each with the first bit on the line as bit 0. -/
  | sending (chars : List (BitVec 11))
  /-- The reply window is open and no start bit has come. -/
  | window
  /-- A reply character is arriving, after the characters received. -/
  | char (rx : List Byte)
  /-- Between two reply characters. -/
  | gap (rx : List Byte)
  /-- A reply error was found; the run of bit times of 1 seen at the last event on the line. -/
  | failed (kind : MissKind) (ones : Nat)
  deriving DecidableEq, Repr

/-- What follows the link work in flight (R102, R104, R106, R108). -/
inductive AfterWork where
  /-- The sweep goes on; a preamble's sweep begins. -/
  | go
  /-- The sweep was cut and ends after its exchange. -/
  | cut
  /-- The sweep was cut, and the event that begins the next sweep has come. -/
  | cutResume
  /-- A break begins. -/
  | brk
  /-- One sweep from the first exchange begins (QUIESCING entry). -/
  | first
  deriving DecidableEq, Repr

/-- The Field Link Controller (R98, R101, R107, R109). -/
structure FLC where
  nodes : Vector NodeRec 30
  work : LinkWork
  after : AfterWork
  /-- The sweep cursor: the number of the next exchange of the list. -/
  cursor : Nat
  /-- The sweep in flight began at the first exchange (R103). -/
  fromFirst : Bool
  /-- The round's record: which nodes have had a good reply in it. -/
  round : Vector Bool 30
  recoveries : Nat
  deriving DecidableEq, Repr

/-- A channel record (R110 to R112); `node` is the node state last handed for the channel's node. -/
structure ChannelRec where
  value : Option Int
  age : Nat
  rangeFault : Bool
  node : NodeState
  deriving DecidableEq, Repr

/-- A status line filter (R118). -/
structure Filter where
  accepted : Bool
  run : Nat
  deriving DecidableEq, Repr

/-- The vehicle copy (R121 to R123). -/
structure VehicleCopy where
  budget : Int
  ff : Zones Int
  current : Bool
  deriving DecidableEq, Repr

/-- The Measurement Unit. -/
structure MU where
  channels : Vector ChannelRec 16
  lastValid : Zones (Option Int)
  degraded : Zones Bool
  filters : Lines Filter
  copy : VehicleCopy
  /-- Milliseconds since the last commit; `none` while uncounted (R121 to R123). -/
  commitAge : Option Nat
  deriving DecidableEq, Repr

/-- A composition record (R61): goal, class, weight, topmost applied slot and the entries top to bottom, each
marked `true` when passed over. -/
structure Composition where
  lo : Option Int
  hi : Option Int
  cls : Option AllotClass
  weight : Nat
  top : Option Slot
  entries : List (Slot × Bool)
  deriving DecidableEq, Repr

/-- The per-zone results of a pass (R149), with the measurement the pass used (R127). -/
structure ZoneResult where
  meas : Option Int
  error : Option Int
  integral : Int
  demand : Int
  recovered : Int
  radiated : Int
  chilled : Int
  pumped : Int
  resistive : Int
  served : Int
  unserved : Bool
  deriving DecidableEq, Repr

/-- The pass-level results (R149). -/
structure PassTotals where
  bStart : Int
  bEnd : Int
  h : Int
  c : Int
  r : Int
  cost : Int
  f : Int
  copEff : Int
  compUse : Int
  heatUse : Int
  compLeft : Int
  heatLeft : Int
  compAvail : Bool
  heatAvail : Bool
  recAvail : Bool
  pumpAvail : Bool
  radAvail : Bool
  radiated : Int
  deriving DecidableEq, Repr

/-- A pass in flight: everything it hands on at its completion (R126, R127). -/
structure PassResult where
  zones : Zones ZoneResult
  totals : PassTotals
  /-- What the pass adds to the frost (R146). -/
  frostAdd : Int
  /-- Some zone was chill-flagged and in class P in the pass (R182). -/
  chillP : Bool
  deriving DecidableEq, Repr

/-- The previous-pass items of a zone (R136): the sign of D (−1, 0, 1) and the unserved-in-part fact. -/
structure Previous where
  sign : Int
  unserved : Bool
  deriving DecidableEq, Repr

/-- The Balance Engine. -/
structure BE where
  /-- Milliseconds since the period timer was started or restarted; `none` while stopped (R124). In ACTIVE
  this is the time since the last pass start. -/
  timer : Option Nat
  lock : LockState
  integral : Zones Int
  prev : Zones Previous
  comp : Zones Composition
  results : Zones ZoneResult
  totals : PassTotals
  inFlight : Option PassResult
  frost : Int
  passCount : Word
  overruns : Nat
  deriving DecidableEq, Repr

/-- An actuator's state (9.1), with the command its last DRIVE request carried in the sweep in flight (R94). -/
structure ActRec where
  command : Option Int
  latch : Option FaultKind
  tracking : Nat
  feedback : Option Int
  node : NodeState
  aim : AimCase
  carried : Option Int
  deriving DecidableEq, Repr

/-- The Actuation Unit. -/
structure AU where
  acts : Vector ActRec 12
  /-- The path flags (R161). -/
  paths : Zones Paths
  deriving DecidableEq, Repr

/-- An allowance: its computed and its published value (R172). -/
structure Allowance where
  computed : Int
  published : Int
  deriving DecidableEq, Repr

/-- The protection state of a zone (10). -/
structure ZoneProtect where
  /-- The limits in force. -/
  limits : Option Limits
  /-- The locked values; `none` for an unlocked zone. -/
  locked : Option Limits
  high : Bool
  low : Bool
  hard : Bool
  state : ZoneState
  power : Allowance
  deriving DecidableEq, Repr

/-- The Protection Unit. -/
structure PU where
  zones : Zones ZoneProtect
  chargeA : Allowance
  chargeB : Allowance
  firstPass : Bool
  deriving DecidableEq, Repr

/-- The run record (R177); times in milliseconds. -/
structure RunRec where
  state : RunState
  origin : Option Origin
  suspendable : Bool
  remembered : Option RememberedPhase
  phaseTimer : Nat
  meltTime : Nat
  suspendCount : Nat
  suspendedTime : Nat
  pendingSuspend : Bool
  resumeCount : Nat
  aborted : Option AbortCause
  deriving DecidableEq, Repr

/-- The last-run record (R177): completed exactly when there is no abort cause. -/
structure LastRun where
  origin : Option Origin
  cause : Option AbortCause
  suspendCount : Nat
  suspendedTime : Nat
  deriving DecidableEq, Repr

/-- The Defrost Controller. -/
structure DC where
  run : RunRec
  last : Option LastRun
  deriving DecidableEq, Repr

/-! ## The whole part -/

/-- The state of the part: the commands that wait, the RESETn pin, the host-written words and the blocks. -/
structure State where
  /-- The commands that wait, first in, first out. -/
  pending : List Instr
  /-- RESETn is asserted (R1, R118). -/
  resetHeld : Bool
  /-- The host-written words of the exchange memory. -/
  xm : Memory
  pi : PI
  mc : MC
  du : DU
  cc : CC
  flc : FLC
  mu : MU
  be : BE
  au : AU
  pu : PU
  dc : DC
  deriving DecidableEq, Repr

/-- Why the part could stop with a fault. Nothing in the manual stops the part: every invalid access is
recorded and every refused action is answered in a status word, so there is no constructor. -/
inductive Fault where
  deriving DecidableEq, Repr

/-- Why a command could be refused. -/
inductive Refusal where
  /-- A row of the opcode table with no meaning yet; raised by an arm of `exec` only. Safe: the model stops
  where the part goes on. No arm raises it now. -/
  | notModelled (mnemonic : String)
  deriving DecidableEq, Repr

/-! ## Updates of one block -/

def State.onPi (s : State) (f : PI → PI) : State := { s with pi := f s.pi }
def State.onMc (s : State) (f : MC → MC) : State := { s with mc := f s.mc }
def State.onDu (s : State) (f : DU → DU) : State := { s with du := f s.du }
def State.onCc (s : State) (f : CC → CC) : State := { s with cc := f s.cc }
def State.onFlc (s : State) (f : FLC → FLC) : State := { s with flc := f s.flc }
def State.onMu (s : State) (f : MU → MU) : State := { s with mu := f s.mu }
def State.onBe (s : State) (f : BE → BE) : State := { s with be := f s.be }
def State.onAu (s : State) (f : AU → AU) : State := { s with au := f s.au }
def State.onPu (s : State) (f : PU → PU) : State := { s with pu := f s.pu }
def State.onDc (s : State) (f : DC → DC) : State := { s with dc := f s.dc }

/-! ## Reset values -/

/-- PI at power-on reset (R8, R11, R12, R15 to R18). -/
def PI.reset : PI where
  port := .waiting
  sdo := 0
  accessKind := .none
  accessAddr := 0
  cause := 0
  cmask := 0
  ctrl := 0
  busy := false
  lastAction := .none
  lastResult := .none
  divisorCount := 0
  publication := none
  report := List.replicate 512 0

/-- MC at power-on reset (R19). -/
def MC.reset : MC where
  state := .unconfigured
  config := none
  wake := false
  wakeTimer := none

/-- The "0" column of the slot status (R34), with no working record. -/
def SlotRec.empty : SlotRec where
  state := .empty
  reason := none
  outcome := none
  result := .none
  due := none
  placed := false
  met := .notYet
  runCount := 0
  lastRun := none
  firedOn := none
  suspendCount := 0
  work := none

/-- DU at power-on reset (R58). -/
def DU.reset : DU where
  slots := Vector.replicate 24 SlotRec.empty
  stack := zmk fun _ => []
  wait := zmk fun _ => []

/-- CC at power-on reset (R76, R80). -/
def CC.reset : CC where
  time := 0
  divider := 0
  set := false
  minuteEvents := 0
  rewrite := none
  rewriteDue := false
  page := List.replicate 16 0

/-- A node record as reset leaves it (R98). -/
def NodeRec.reset : NodeRec where
  state := .unknown
  misses := 0
  good := 0
  lastError := none

/-- FLC at power-on reset (R98, R101, R107, R109). -/
def FLC.reset : FLC where
  nodes := Vector.replicate 30 NodeRec.reset
  work := .off
  after := .go
  cursor := 0
  fromFirst := false
  round := Vector.replicate 30 false
  recoveries := 0

/-- A channel record as reset leaves it (R113). -/
def ChannelRec.reset : ChannelRec where
  value := none
  age := 0
  rangeFault := false
  node := .unknown

/-- MU at power-on reset (R113, R115, R116, R119, R123). -/
def MU.reset : MU where
  channels := Vector.replicate 16 ChannelRec.reset
  lastValid := zmk fun _ => none
  degraded := zmk fun _ => false
  filters := ⟨⟨false, 0⟩, ⟨false, 0⟩, ⟨false, 0⟩⟩
  copy := ⟨0, zmk fun _ => 0, false⟩
  commitAge := none

/-- The empty form of a composition record (R61). -/
def Composition.empty : Composition where
  lo := none
  hi := none
  cls := none
  weight := 0
  top := none
  entries := []

/-- Per-zone results at reset (R149). -/
def ZoneResult.reset : ZoneResult where
  meas := none
  error := some 0
  integral := 0
  demand := 0
  recovered := 0
  radiated := 0
  chilled := 0
  pumped := 0
  resistive := 0
  served := 0
  unserved := false

/-- Pass-level results at reset (R149). -/
def PassTotals.reset : PassTotals where
  bStart := 0
  bEnd := 0
  h := 0
  c := 0
  r := 0
  cost := 0
  f := 0
  copEff := 0
  compUse := 0
  heatUse := 0
  compLeft := 0
  heatLeft := 0
  compAvail := false
  heatAvail := false
  recAvail := false
  pumpAvail := false
  radAvail := false
  radiated := 0

/-- BE at power-on reset (R149). -/
def BE.reset : BE where
  timer := none
  lock := .off
  integral := zmk fun _ => 0
  prev := zmk fun _ => ⟨0, false⟩
  comp := zmk fun _ => Composition.empty
  results := zmk fun _ => ZoneResult.reset
  totals := PassTotals.reset
  inFlight := none
  frost := 0
  passCount := 0
  overruns := 0

/-- An actuator at power-on reset (R162). -/
def ActRec.reset : ActRec where
  command := none
  latch := none
  tracking := 0
  feedback := none
  node := .unknown
  aim := .load
  carried := none

/-- AU at power-on reset (R162). -/
def AU.reset : AU where
  acts := Vector.replicate 12 ActRec.reset
  paths := zmk fun _ => ⟨false, false, false, false, false, false⟩

/-- A zone's protection at power-on reset (R163, R168, R169, R174, R176). -/
def ZoneProtect.reset : ZoneProtect where
  limits := none
  locked := none
  high := false
  low := false
  hard := false
  state := .idle
  power := ⟨0, 0⟩

/-- PU at power-on reset (R174). -/
def PU.reset : PU where
  zones := zmk fun _ => ZoneProtect.reset
  chargeA := ⟨0, 0⟩
  chargeB := ⟨0, 0⟩
  firstPass := false

/-- The run record in IDLE (R177). -/
def RunRec.idle : RunRec where
  state := .idle
  origin := none
  suspendable := false
  remembered := none
  phaseTimer := 0
  meltTime := 0
  suspendCount := 0
  suspendedTime := 0
  pendingSuspend := false
  resumeCount := 0
  aborted := none

/-- DC at power-on reset (R177). -/
def DC.reset : DC where
  run := RunRec.idle
  last := none

/-- The part right after reset: every block at its power-on values, and RESETn released. -/
def State.reset : State where
  pending := []
  resetHeld := false
  xm := []
  pi := PI.reset
  mc := MC.reset
  du := DU.reset
  cc := CC.reset
  flc := FLC.reset
  mu := MU.reset
  be := BE.reset
  au := AU.reset
  pu := PU.reset
  dc := DC.reset

end Sys2Proof.Machine
end

