-- ==== Sys2Proof/Machine/Bits.lean ====
section
/-! DEFINITION. Fields of words (layouts, opening and R189), and the rounding functions of the manual
(Units and number conventions). -/

namespace Sys2Proof.Machine

/-- The unsigned field of `len` bits whose lowest bit is `lo`. -/
def bitsAt (w : Word) (lo len : Nat) : Nat := w.toNat / 2 ^ lo % 2 ^ len

/-- The flag at a bit. -/
def flagAt (w : Word) (i : Nat) : Bool := w.getLsbD i

/-- A number of `len` bits read as two's complement. -/
def signedOf (len n : Nat) : Int := if n < 2 ^ (len - 1) then (n : Int) else (n : Int) - (2 ^ len : Nat)

/-- The signed field of `len` bits whose lowest bit is `lo`. -/
def signedAt (w : Word) (lo len : Nat) : Int := signedOf len (bitsAt w lo len)

/-- A number placed as the field of `len` bits whose lowest bit is `lo`. -/
def place (lo len n : Nat) : Nat := n % 2 ^ len * 2 ^ lo

/-- A signed number's two's complement in `len` bits. -/
def twos (len : Nat) (x : Int) : Nat := (x % (2 ^ len : Nat)).toNat

/-- The word that holds the placed fields, which share no bit. -/
def packed (fields : List Nat) : Word := BitVec.ofNat 32 fields.sum

/-- A word that holds one unsigned number. -/
def natWord (n : Nat) : Word := BitVec.ofNat 32 n

/-- A word that holds one signed number. -/
def intWord (x : Int) : Word := BitVec.ofInt 32 x

/-- 1 for set, 0 for clear. -/
def bit (b : Bool) : Nat := if b then 1 else 0

/-- clamp(x, a, b). -/
def clamp (x a b : Int) : Int := if x < a then a else if b < x then b else x

/-- floor(a / b) for b above 0; 0 for b = 0. -/
def floorDiv (a b : Int) : Int := a / b

/-- ceil(a / b) for b above 0; 0 for b = 0. -/
def ceilDiv (a b : Int) : Int := -((-a) / b)

/-- trunc(a / b): the fraction removed toward zero. -/
def truncDiv (a b : Int) : Int := a.tdiv b

/-- A number of 16 bits from two bytes, least significant byte first (R91). -/
def littleEndian16 (lo hi : Byte) : Nat := lo.toNat + 256 * hi.toNat

end Sys2Proof.Machine
end

