-- ==== Sys2Proof/Machine/Memory.lean ====
section
/-! DEFINITION. The host-written words of the exchange memory (R4). An unlisted word reads 0, its value at
power-on reset. -/

namespace Sys2Proof.Machine

/-- The word at an address. -/
def memRead : Memory → Nat → Word
  | [], _ => 0
  | (b, w) :: m, a => if a = b then w else memRead m a

/-- The memory with one word written; writing 0 removes the entry. -/
def memWrite : Memory → Nat → Word → Memory
  | [], a, v => if v = 0 then [] else [(a, v)]
  | (b, w) :: m, a, v =>
    if a < b then (if v = 0 then (b, w) :: m else (a, v) :: (b, w) :: m)
    else if a = b then (if v = 0 then m else (a, v) :: m)
    else (b, w) :: memWrite m a v

/-- Every address of a memory lies above a bound. -/
def memAbove (lo : Nat) : Memory → Bool
  | [] => true
  | (b, _) :: m => decide (lo < b) && memAbove lo m

/-- The canonical form: addresses strictly rising, no word equal to 0. -/
def Memory.wf : Memory → Bool
  | [] => true
  | (b, w) :: m => w != 0 && memAbove b m && Memory.wf m

/-- The memory with a run of addresses set to one word. -/
def memFill (m : Memory) (addrs : List Nat) (v : Word) : Memory :=
  addrs.foldl (fun m a => memWrite m a v) m

end Sys2Proof.Machine
end

