-- ==== Sys2Proof/Machine/Flags.lean ====
section
/-! DEFINITION. The CAUSE flags, CMASK and the attention line (R17, R18). -/

namespace Sys2Proof.Machine

/-- The bit of a cause flag in CAUSE and CMASK (layouts 13.2). -/
def causeBit : CauseFlag → Nat
  | .slotEnd => 0
  | .report => 1
  | .advisory => 2
  | .fault => 3
  | .wake => 4
  | .access => 5
  | .stale => 6
  | .line => 7
  | .ctrlDone => 8

/-- The word of nine flags with one flag's bit set. -/
def causeMask (f : CauseFlag) : BitVec 9 := BitVec.ofNat 9 (2 ^ causeBit f)

/-- A flag is set in CAUSE. -/
def causeIsSet (s : State) (f : CauseFlag) : Bool := s.pi.cause.getLsbD (causeBit f)

/-- A flag is raised: it is set, whatever CMASK holds (R17). -/
def raise (f : CauseFlag) (s : State) : State := s.onPi fun p => { p with cause := p.cause ||| causeMask f }

/-- A flag is raised when a condition holds. -/
def raiseIf (b : Bool) (f : CauseFlag) (s : State) : State := if b then raise f s else s

/-- The nine bits of a written word that CAUSE and CMASK take (R17, R18). -/
def flagBits (w : Word) : BitVec 9 := w.setWidth 9

/-- A host write to CAUSE clears each flag whose bit is 1 (R17). -/
def clearCauses (w : Word) (s : State) : State :=
  s.onPi fun p => { p with cause := p.cause &&& ~~~(flagBits w) }

/-- A host write to CMASK stores the enables (R18). -/
def storeMask (w : Word) (s : State) : State := s.onPi fun p => { p with cmask := flagBits w }

/-- ATTN is asserted (low) exactly while some flag is both set and enabled (R18). It is a function of CAUSE
and CMASK, so it is re-evaluated at every event that changes either. -/
def attnAsserted (s : State) : Bool := s.pi.cause &&& s.pi.cmask != 0

end Sys2Proof.Machine
end

