-- ==== Sys2Proof/Machine/Calendar.lean ====
section
/-! DEFINITION. The calendar of 2000 to 2099 (R75) and the clock page (R80, layouts 13.8). -/

namespace Sys2Proof.Machine

/-- A calendar time in its six fields. -/
structure CalFields where
  year : Nat
  month : Nat
  date : Nat
  hour : Nat
  minute : Nat
  second : Nat
  deriving DecidableEq, Repr

/-- February has 29 days in every year of the range that is divisible by 4 (R75). -/
def leapYear (y : Nat) : Bool := y % 4 == 0

/-- The lengths of a year's months, January first (R75). -/
def monthLengths (leap : Bool) : List Nat :=
  [31, if leap then 29 else 28, 31, 30, 31, 30, 31, 31, 30, 31, 30, 31]

/-- The last day of a month; 0 for no month. -/
def lastDay (year month : Nat) : Nat :=
  if month = 0 then 0 else (monthLengths (leapYear year)).getD (month - 1) 0

/-- The number of a date, in days since 2000-01-01. -/
def dayNumber (year month date : Nat) : Nat :=
  let y := year - 2000
  365 * y + (y + 3) / 4 + ((monthLengths (leapYear year)).take (month - 1)).sum + (date - 1)

/-- Month and date of a day of the year, counted from 0, along the list of month lengths. -/
def monthAndDate : List Nat → Nat → Nat → Nat × Nat
  | [], m, d => (m, d + 1)
  | len :: rest, m, d => if d < len then (m, d + 1) else monthAndDate rest (m + 1) (d - len)

/-- Year, month and date of a day number. -/
def dateOfDays (days : Nat) : Nat × Nat × Nat :=
  let q := days / 1461
  let r := days % 1461
  let (y, d) := if r < 366 then (4 * q, r) else (4 * q + 1 + (r - 366) / 365, (r - 366) % 365)
  (2000 + y, monthAndDate (monthLengths (leapYear (2000 + y))) 1 d)

/-- The calendar time in seconds since 2000-01-01 00:00:00. -/
def secondsOf (c : CalFields) : Nat :=
  dayNumber c.year c.month c.date * 86400 + c.hour * 3600 + c.minute * 60 + c.second

/-- The six fields of a time in seconds. -/
def fieldsOf (t : Nat) : CalFields :=
  let (y, m, d) := dateOfDays (t / 86400)
  ⟨y, m, d, t / 3600 % 24, t / 60 % 60, t % 60⟩

/-- The weekday of a day number, 0 Monday to 6 Sunday; 2000-01-01 is a Saturday (R75, layouts 13.8). -/
def weekdayOf (days : Nat) : Nat := (days + 5) % 7

/-- TIME_SET's test of its six fields (R78). -/
def calendarFieldsValid (c : CalFields) : Bool :=
  decide (2000 ≤ c.year) && decide (c.year ≤ 2099) && decide (1 ≤ c.month) && decide (c.month ≤ 12)
    && decide (1 ≤ c.date) && decide (c.date ≤ lastDay c.year c.month)
    && decide (c.hour ≤ 23) && decide (c.minute ≤ 59) && decide (c.second ≤ 59)

/-- The present minute stamp (R75). -/
def nowStamp (s : State) : Nat := s.cc.time / 60

/-- The present date, in days since 2000-01-01. -/
def nowDate (s : State) : Nat := s.cc.time / 86400

/-- The sixteen words of the clock page for the clock as it stands (R80, layouts 13.8). -/
def clockPageWords (c : CC) : List Word :=
  let f := fieldsOf c.time
  [natWord f.year, natWord f.month, natWord f.date, natWord f.hour, natWord f.minute, natWord f.second,
    natWord (weekdayOf (c.time / 86400)), natWord (c.time / 60), natWord (bit c.set), c.minuteEvents,
    0, 0, 0, 0, 0, 0]

/-- A clock page rewrite falls due (R14, R80): it begins, or, while one is in flight, follows it.
DESIGN CHOICE (notes/assumptions/56.md): R14 speaks of a second rewrite; a third and any further one that falls due
in the same window is merged into the second, the one follow-up with the values as they then stand. -/
def beginRewrite (s : State) : State :=
  s.onCc fun c =>
    match c.rewrite with
    | none => { c with rewrite := some (clockPageWords c) }
    | some _ => { c with rewriteDue := true }

/-- A clock page rewrite completes (R14): the page holds the values taken at its start; a further rewrite
that is due begins at once with the values as they stand, and the window stays open. -/
def completeRewrite (s : State) : State :=
  s.onCc fun c =>
    match c.rewrite with
    | none => c
    | some words =>
      { c with
        page := words
        rewrite := if c.rewriteDue then some (clockPageWords c) else none
        rewriteDue := false }

end Sys2Proof.Machine
end

