-- ==== Sys2Proof/Machine/Operands.lean ====
section
/-! DEFINITION. The operands the host leaves in the exchange memory: the configuration area (layouts 13.3),
the vehicle page and clock-set block (13.4) and the directive slot (13.5), each field as written. -/

namespace Sys2Proof.Machine

/-! ## The configuration area -/

/-- The code of a node kind. -/
def nodeKindOf : Nat → Option NodeKind
  | 0 => some .sensor
  | 1 => some .actuator
  | 2 => some .mixed
  | _ => none

/-- The code of an aggregation. -/
def aggregationOf : Nat → Option Aggregation
  | 0 => some .max
  | 1 => some .mean
  | 2 => some .first
  | _ => none

/-- The code of a class. -/
def classOf : Nat → Option Class
  | 0 => some .a
  | 1 => some .b
  | 2 => some .c
  | _ => none

/-- The code of a source kind. -/
def sourceOf : Nat → Option Source
  | 0 => some .compressorLoad
  | 1 => some .heaterLoad
  | 2 => some .radiatorLoad
  | 3 => some .zoneHeat
  | 4 => some .zoneCool
  | 5 => some .zoneAny
  | _ => none

/-- The period of its code, in milliseconds. -/
def periodOf : Nat → Nat
  | 0 => 250
  | 1 => 500
  | 2 => 1000
  | _ => 2000

/-- Six path flags from six bits, in the order of the zone table.
DEDUCED (notes/assumptions/61.md): the first path of the order, recovery source, has the lowest bit. -/
def pathsOf (n : Nat) : Paths :=
  ⟨n.testBit 0, n.testBit 1, n.testBit 2, n.testBit 3, n.testBit 4, n.testBit 5⟩

/-- Node table entry n, word 0x010 + n. -/
def nodeCfgAt (m : Memory) (n : Nat) : NodeCfg :=
  let w := memRead m (0x010 + n)
  ⟨flagAt w 0, nodeKindOf (bitsAt w 1 2), bitsAt w 8 5⟩

/-- Channel table entry c, words 0x030 + 2c. -/
def channelCfgAt (m : Memory) (c : Nat) : ChannelCfg :=
  let w := memRead m (0x030 + 2 * c)
  let v := memRead m (0x031 + 2 * c)
  ⟨flagAt w 0, bitsAt w 8 5, bitsAt w 16 2, signedAt v 0 16, signedAt v 16 16⟩

/-- Zone record of a zone, 32 words at 0x060 + 32z. The cold fields and the fallback charge allowance are
read for PACK_A and PACK_B alone (R163). -/
def zoneCfgAt (m : Memory) (z : Zone) : ZoneCfg :=
  let w := fun k => memRead m (0x060 + 32 * zoneNumber z + k)
  let lo := fun k => signedAt (w k) 0 16
  let hi := fun k => signedAt (w k) 16 16
  { channels := [bitsAt (w 0) 0 4, bitsAt (w 0) 4 4, bitsAt (w 0) 8 4].take (bitsAt (w 0) 12 2)
    agg := aggregationOf (bitsAt (w 0) 16 2)
    paths := pathsOf (bitsAt (w 0) 24 6)
    limits :=
      { tmin := lo 1
        tmax := hi 1
        softHi := lo 2
        hardHi := hi 2
        lowProtect := lo 3
        margin := bitsAt (w 3) 16 16
        hysteresis := bitsAt (w 4) 0 16
        riseStep := bitsAt (w 4) 16 16
        coldZero := if isPack z then lo 5 else 0
        coldFull := if isPack z then hi 5 else 0 }
    kp := bitsAt (w 6) 0 16
    ki := bitsAt (w 6) 16 16
    imax := bitsAt (w 7) 0 32
    hmax := bitsAt (w 8) 0 32
    cmax := bitsAt (w 9) 0 32
    fbDemand := signedAt (w 10) 0 32
    fbClass := classOf (bitsAt (w 11) 0 2)
    fbWeight := bitsAt (w 11) 4 4
    fbPower := bitsAt (w 11) 16 10
    fbCharge := if isPack z then bitsAt (w 12) 0 10 else 0
    lag := bitsAt (w 12) 16 10
    leadMargin := bitsAt (w 13) 0 7 }

/-- Actuator record a, 8 words at 0x100 + 8a. -/
def actCfgAt (m : Memory) (a : Nat) : ActCfg :=
  let w := fun k => memRead m (0x100 + 8 * a + k)
  { enable := flagAt (w 0) 0
    node := bitsAt (w 0) 8 5
    output := bitsAt (w 0) 16 2
    source := sourceOf (bitsAt (w 0) 20 3)
    zones := zonesOfMask (bitsAt (w 0) 24 5)
    base := bitsAt (w 1) 0 16
    gain := signedAt (w 1) 16 16
    min := bitsAt (w 2) 0 16
    max := bitsAt (w 2) 16 16
    slew := bitsAt (w 3) 0 16
    rest := bitsAt (w 3) 16 16
    defrost := if bitsAt (w 4) 0 16 = 0xFFFF then none else some (bitsAt (w 4) 0 16)
    tolerance := bitsAt (w 4) 16 16
    pump := flagAt (w 5) 0
    cap := bitsAt (w 5) 16 10
    essential := bitsAt (w 6) 0 30 }

/-- The plant table, words 0x160 to 0x169. -/
def plantAt (m : Memory) : Plant :=
  let w := fun k => memRead m (0x160 + k)
  { pcomp := bitsAt (w 0) 0 16
    pheat := bitsAt (w 0) 16 16
    copr := bitsAt (w 1) 0 8
    copc := bitsAt (w 1) 8 8
    coph := bitsAt (w 1) 16 8
    recoveryEnable := flagAt (w 1) 24
    autoDefrost := flagAt (w 1) 25
    autoSuspendable := flagAt (w 1) 26
    tmaxHeat := bitsAt (w 2) 0 16
    hpMinAmb := signedAt (w 2) 16 16
    krad := bitsAt (w 3) 0 16
    fmax := bitsAt (w 3) 16 16
    frostTemp := signedAt (w 4) 0 16
    frostLimit := bitsAt (w 4) 16 16
    radInlet := bitsAt (w 5) 0 5
    ambient := bitsAt (w 5) 8 5
    evapOutlet := bitsAt (w 5) 16 5
    prepareTime := bitsAt (w 6) 0 16
    dripTime := bitsAt (w 6) 16 16
    meltMax := bitsAt (w 7) 0 16
    restoreTime := bitsAt (w 7) 16 16
    meltEnd := signedAt (w 8) 0 16
    meltPower := bitsAt (w 8) 16 16
    resumeDelay := bitsAt (w 9) 0 8
    suspendMax := bitsAt (w 9) 8 8 }

/-- The whole configuration area as CONFIGURE reads it (R28). -/
def cfgOfArea (m : Memory) : Cfg :=
  let w0 := memRead m 0x000
  let w1 := memRead m 0x001
  let w2 := memRead m 0x002
  { period := periodOf (bitsAt w0 0 2)
    lockEnable := flagAt w0 4
    divisor := bitsAt w0 8 4
    wakeTimeout := bitsAt w0 16 6
    catchWindow := bitsAt w0 24 7
    grantTimeout := bitsAt w1 0 5
    floorGrant := bitsAt w1 16 16
    bitRate := bitsAt w2 0 2
    missLimit := bitsAt w2 4 4
    holdLimit := bitsAt w2 8 5
    filterCount := ⟨bitsAt w2 16 4, bitsAt w2 20 4, bitsAt w2 24 4⟩
    nodes := Vector.ofFn fun n => nodeCfgAt m n
    channels := Vector.ofFn fun c => channelCfgAt m c
    zones := zmk (zoneCfgAt m)
    acts := Vector.ofFn fun a => actCfgAt m a
    plant := plantAt m }

/-! ## CONFIGURE's checks (R28) -/

/-- lo ≤ x ≤ hi. -/
def within (lo x hi : Int) : Bool := decide (lo ≤ x) && decide (x ≤ hi)

/-- Check 1 on an enabled node entry. -/
def nodeInRange (n : NodeCfg) : Bool := !n.enable || (n.kind.isSome && within 1 n.address 30)

/-- Check 1 on an enabled channel entry (R110). -/
def channelInRange (c : ChannelCfg) : Bool :=
  !c.enable || (within 1 c.node 30 && within 0 c.index 3 && decide (c.plausLo ≤ c.plausHi))

/-- Check 1 on a zone's limit fields (R163). -/
def limitsInRange (z : Zone) (l : Limits) : Bool :=
  within (-400) l.tmin 1500 && within (-400) l.tmax 1500 && decide (l.tmin ≤ l.tmax)
    && within (-500) l.softHi 1600 && within (-500) l.hardHi 1600 && within (-500) l.lowProtect 1600
    && decide (l.lowProtect < l.softHi) && decide (l.softHi < l.hardHi)
    && within 0 l.margin 200 && within 0 l.hysteresis 200 && within 1 l.riseStep 1000
    && (!isPack z || (within (-500) l.coldZero 600 && within (-500) l.coldFull 600
      && decide (l.coldZero < l.coldFull)))

/-- Check 1 on a zone record (R87, R114, R128, R163). -/
def zoneInRange (z : Zone) (c : ZoneCfg) : Bool :=
  within 1 c.channels.length 3 && c.agg.isSome && limitsInRange z c.limits
    && within 0 c.kp 5000 && within 0 c.ki 500 && within 0 c.imax 50000
    && within 0 c.hmax 60000 && within 0 c.cmax 60000 && within (-60000) c.fbDemand 60000
    && c.fbClass.isSome && within 1 c.fbWeight 15 && within 0 c.fbPower 1000 && within 0 c.fbCharge 1000
    && within 1 c.lag 600 && within 0 c.leadMargin 120

/-- Check 1 on an enabled actuator entry (R150). -/
def actInRange (a : ActCfg) : Bool :=
  !a.enable ||
    (within 1 a.node 30 && within 0 a.output 3 && a.source.isSome
      && within 0 a.base 1000 && within (-1000) a.gain 1000
      && within 0 a.min 1000 && within 0 a.max 1000 && decide (a.min ≤ a.max)
      && within 1 a.slew 1000 && within a.min a.rest a.max
      && (match a.defrost with
        | none => true
        | some d => within a.min d a.max)
      && within 0 a.cap 1000 && within 0 a.tolerance 1000)

/-- A designated channel names a channel or is absent (31). -/
def designatedInRange (n : Nat) : Bool := decide (n < 16) || n == 31

/-- Check 1 on the plant table (8.3, 11.1). -/
def plantInRange (p : Plant) : Bool :=
  within 0 p.pcomp 30000 && within 0 p.pheat 30000
    && within 10 p.copr 60 && within 10 p.copc 60 && within 10 p.coph 60
    && within 0 p.tmaxHeat 30000 && within (-400) p.hpMinAmb 200 && within 0 p.krad 1000
    && within 0 p.fmax 60000 && within (-300) p.frostTemp 100 && within 100 p.frostLimit 60000
    && designatedInRange p.radInlet && designatedInRange p.ambient && designatedInRange p.evapOutlet
    && within 10 p.prepareTime 120 && within 30 p.dripTime 300 && within 60 p.meltMax 900
    && within 10 p.restoreTime 120 && within (-100) p.meltEnd 200 && within 0 p.meltPower 30000
    && within 1 p.resumeDelay 60 && within 1 p.suspendMax 30

/-- Check 1 on the general parameters (2.5 and the chapters that own them). -/
def generalInRange (c : Cfg) : Bool :=
  within 1 c.divisor 8 && within 1 c.wakeTimeout 60 && within 0 c.catchWindow 120
    && within 1 c.grantTimeout 30 && within 0 c.floorGrant 60000
    && within 0 c.bitRate 2 && within 1 c.missLimit 8 && within 2 c.holdLimit 20

/-- Check 1: every field in its range (BAD_TABLE). -/
def checkRanges (c : Cfg) : Bool :=
  generalInRange c && c.nodes.toList.all nodeInRange && c.channels.toList.all channelInRange
    && allZones.all (fun z => zoneInRange z (zget c.zones z))
    && c.acts.toList.all actInRange && plantInRange c.plant

/-- Check 2: no two enabled nodes have the same address (DUP_ADDRESS). -/
def checkAddresses (c : Cfg) : Bool :=
  decide ((c.nodes.toList.filter (·.enable)).map (·.address)).Nodup

/-- An address names an enabled node of a kind that a test accepts. -/
def namesNode (c : Cfg) (ok : NodeKind → Bool) (address : Nat) : Bool :=
  c.nodes.toList.any fun n => n.enable && n.address == address && n.kind.any ok

/-- SENSOR or MIXED. -/
def sampled : NodeKind → Bool
  | .sensor | .mixed => true
  | .actuator => false

/-- ACTUATOR or MIXED. -/
def driven : NodeKind → Bool
  | .actuator | .mixed => true
  | .sensor => false

/-- A channel number names an enabled channel. -/
def namesChannel (c : Cfg) (n : Nat) : Bool :=
  if h : n < 16 then (c.channels.get ⟨n, h⟩).enable else false

/-- The zones of a source: exactly one for ZONE_HEAT and ZONE_COOL, one to three for ZONE_ANY. -/
def sourceZonesOk (a : ActCfg) : Bool :=
  match a.source with
  | some .zoneHeat | some .zoneCool => a.zones.length == 1
  | some .zoneAny => decide (1 ≤ a.zones.length) && decide (a.zones.length ≤ 3)
  | _ => true

/-- Check 3: every reference names what it may name (BAD_REF). -/
def checkReferences (c : Cfg) : Bool :=
  c.channels.toList.all (fun ch => !ch.enable || namesNode c sampled ch.node)
    && allZones.all (fun z => (zget c.zones z).channels.all (namesChannel c))
    && [c.plant.radInlet, c.plant.ambient, c.plant.evapOutlet].all (fun n => n == 31 || namesChannel c n)
    && c.acts.toList.all (fun a => !a.enable || (namesNode c driven a.node && sourceZonesOk a))
    && decide ((c.acts.toList.filter (·.enable)).map fun a => (a.node, a.output)).Nodup

/-- Check 4: the limits of a locked zone equal its locked values (LOCKED_LIMITS). -/
def checkLocks (p : PU) (c : Cfg) : Bool :=
  allZones.all fun z =>
    match (zget p.zones z).locked with
    | none => true
    | some l => decide ((zget c.zones z).limits = l)

/-- The code of the first check that fails (R28); `none` when every check passes. -/
def configureRefusal (p : PU) (c : Cfg) : Option CtrlResult :=
  if !checkRanges c then some .badTable
  else if !checkAddresses c then some .dupAddress
  else if !checkReferences c then some .badRef
  else if !checkLocks p c then some .lockedLimits
  else none

/-! ## The vehicle page and the clock-set block (layouts 13.4) -/

/-- The budget a commit copies: at most 60,000 W (R121). -/
def pageBudget (m : Memory) : Int := min ((memRead m 0x200).toNat : Int) 60000

/-- The feed-forward a commit copies for a zone (R121). -/
def pageFf (m : Memory) (z : Zone) : Int := clamp (memRead m (0x201 + zoneNumber z)).toInt (-20000) 20000

/-- The six fields TIME_SET reads (R78). -/
def clockSetFields (m : Memory) : CalFields :=
  let f := fun k => (memRead m (0x220 + k)).toNat
  ⟨f 0, f 1, f 2, f 3, f 4, f 5⟩

/-- The signed seconds TIME_NUDGE reads (R79). -/
def nudgeSeconds (m : Memory) : Int := (memRead m 0x226).toInt

/-! ## The directive slot (layouts 13.5) -/

/-- The word address of a slot's word. -/
def slotAddr (n : Slot) (word : Nat) : Nat := 0x300 + 16 * n.val + word

/-- The body of a slot, words 1 to 9, field by field as written. -/
structure Body where
  kind : Nat
  zone : Nat
  cls : Nat
  combine : Nat
  weight : Nat
  alpha : Nat
  wake : Bool
  suspendable : Bool
  procedure : Nat
  target : Int
  halfBand : Nat
  startCode : Nat
  line : Nat
  hour : Nat
  minute : Nat
  weekdays : Nat
  startParam : Nat
  endCode : Nat
  endParam : Nat
  deadline : Nat
  holdAfter : Nat
  deriving DecidableEq, Repr

/-- The body of slot n as it stands. -/
def bodyOf (m : Memory) (n : Slot) : Body :=
  let w := fun k => memRead m (slotAddr n k)
  { kind := bitsAt (w 1) 0 2
    zone := bitsAt (w 1) 4 3
    cls := bitsAt (w 1) 8 2
    combine := bitsAt (w 1) 12 3
    weight := bitsAt (w 1) 16 4
    alpha := bitsAt (w 1) 20 4
    wake := flagAt (w 1) 24
    suspendable := flagAt (w 1) 25
    procedure := bitsAt (w 1) 28 2
    target := signedAt (w 2) 0 16
    halfBand := bitsAt (w 2) 16 16
    startCode := bitsAt (w 3) 0 3
    line := bitsAt (w 3) 8 2
    hour := bitsAt (w 3) 8 5
    minute := bitsAt (w 3) 16 6
    weekdays := bitsAt (w 3) 24 7
    startParam := (w 4).toNat
    endCode := bitsAt (w 5) 0 3
    endParam := (w 6).toNat
    deadline := (w 7).toNat
    holdAfter := (w 8).toNat }

/-- The code of a directive's kind. -/
def kindOf : Nat → Option Kind
  | 0 => some .setpoint
  | 1 => some .reach
  | 2 => some .procedure
  | _ => none

/-- The code of a combine mode. -/
def combineOf : Nat → Option Combine
  | 0 => some .replace
  | 1 => some .blend
  | 2 => some .floor
  | 3 => some .ceiling
  | _ => none

/-- The code of a status line. -/
def lineOf : Nat → Option Line
  | 0 => some .hvok
  | 1 => some .clvl
  | 2 => some .chgp
  | _ => none

/-- A natural number clamped into a range. -/
def clampNat (x lo hi : Nat) : Nat := max lo (min x hi)

/-- The start of a body, its parameter clamped (R37); `none` where check 5 of R36 refuses it. -/
def startOf (b : Body) : Option Start :=
  match b.startCode with
  | 0 => some .now
  | 1 => some (.at b.startParam)
  | 2 =>
    if b.hour ≤ 23 ∧ b.minute ≤ 59 ∧ b.weekdays ≠ 0 then some (.daily (b.hour * 60 + b.minute) b.weekdays)
    else none
  | 3 => some (.after (clampNat b.startParam 1 1440))
  | 4 => (lineOf b.line).map .onLine
  | _ => none

/-- The end of a body, its parameter clamped (R37); `none` where check 6 of R36 refuses it. -/
def endOf (b : Body) : Option End :=
  match b.endCode with
  | 0 => some .none
  | 1 => some (.at b.endParam)
  | 2 => some (.duration (clampNat b.endParam 1 10080))
  | 3 => some (.settled (clampNat b.endParam 1 60))
  | _ => none

/-- The amend words 10 and 11: new target, new half-band and new weight, each where present. -/
def amendOf (m : Memory) (n : Slot) : Option Int × Option Nat × Option Nat :=
  let w10 := memRead m (slotAddr n 10)
  let w11 := memRead m (slotAddr n 11)
  (if bitsAt w10 0 16 = 0x8000 then none else some (signedAt w10 0 16),
    if bitsAt w10 16 16 = 0xFFFF then none else some (bitsAt w10 16 16),
    if bitsAt w11 0 8 = 0xFF then none else some (bitsAt w11 0 8))

end Sys2Proof.Machine
end

