-- ==== Sys2Proof/Machine/Ops.lean ====
section
/-! DEFINITION. The shared operations: the access record, STAT's action and result, the slots and their lists,
and what the committed configuration gives the blocks. -/

namespace Sys2Proof.Machine

/-! ## The access record -/

/-- An invalid host access overwrites the whole record and raises ACCESS (R8). -/
def recordAccess (kind : AccessKind) (addr : Addr) (s : State) : State :=
  raise .access (s.onPi fun p => { p with accessKind := kind, accessAddr := addr })

/-! ## STAT's last action and result (R16) -/

/-- STAT records an action and its result. -/
def recordAction (a : CtrlAction) (r : CtrlResult) (s : State) : State :=
  s.onPi fun p => { p with lastAction := .action a, lastResult := r }

/-- A timed action is taken: BUSY is set and the result is IN_PROGRESS (R16). -/
def beginTimed (a : CtrlAction) (s : State) : State :=
  s.onPi fun p => { p with busy := true, lastAction := .action a, lastResult := .inProgress }

/-- A timed action completes: BUSY is cleared, STAT shows it DONE, and CTRL_DONE is raised (R16). -/
def completeTimed (a : CtrlAction) (s : State) : State :=
  raise .ctrlDone (s.onPi fun p => { p with busy := false, lastAction := .action a, lastResult := .done })

/-! ## The committed configuration -/

/-- The configuration of a zone, while one is committed. -/
def zoneCfg (s : State) (z : Zone) : Option ZoneCfg := s.mc.config.map fun c => zget c.zones z

/-- The catch window in force, in minutes; 0 is taken as 1 (R89). -/
def catchWindow (s : State) : Nat :=
  match s.mc.config with
  | none => 1
  | some c => if c.catchWindow = 0 then 1 else c.catchWindow

/-- The budget of the degraded copy: the floor grant, or 0 with no committed configuration (R122, R123). -/
def floorGrant (s : State) : Int :=
  match s.mc.config with
  | none => 0
  | some c => c.floorGrant

/-- The filter count of a line: 15 until a configuration is committed (R119). -/
def filterCount (s : State) (l : Line) : Nat :=
  match s.mc.config with
  | none => Config.unconfiguredFilterCount
  | some c => lget c.filterCount l

/-- The accepted state of a line (R118). -/
def accepted (s : State) (l : Line) : Bool := (lget s.mu.filters l).accepted

/-! ## Slots -/

/-- The record of a slot. -/
def slotRec (s : State) (i : Slot) : SlotRec := s.du.slots.get i

/-- A slot's record replaced. -/
def setSlot (i : Slot) (r : SlotRec) (s : State) : State :=
  s.onDu fun d => { d with slots := vset d.slots i r }

/-- A slot's record changed by a function. -/
def mapSlot (i : Slot) (f : SlotRec → SlotRec) (s : State) : State := setSlot i (f (slotRec s i)) s

/-- A slot's working record changed by a function, where there is one. -/
def mapWork (f : Working → Working) (r : SlotRec) : SlotRec := { r with work := r.work.map f }

/-- The slots in order. -/
def allSlots : List Slot := List.finRange 24

/-- A slot is in some state. -/
def slotIs (s : State) (st : SlotState) (i : Slot) : Bool := decide ((slotRec s i).state = st)

/-- A slot summary word: bit n for each slot n in a state (R9). -/
def summaryWord (s : State) (st : SlotState) : Word :=
  natWord ((allSlots.map fun i => if slotIs s st i then 2 ^ i.val else 0).sum)

/-- The stack of a zone, top to bottom. -/
def stackOf (s : State) (z : Zone) : List Slot := zget s.du.stack z

/-- The wait list of a zone, head first. -/
def waitOf (s : State) (z : Zone) : List Slot := zget s.du.wait z

/-- A zone's stack replaced. -/
def setStack (z : Zone) (l : List Slot) (s : State) : State :=
  s.onDu fun d => { d with stack := zset d.stack z l }

/-- A zone's wait list replaced. -/
def setWait (z : Zone) (l : List Slot) (s : State) : State :=
  s.onDu fun d => { d with wait := zset d.wait z l }

/-- A slot leaves every stack and wait list. -/
def leaveLists (i : Slot) (s : State) : State :=
  s.onDu fun d =>
    { d with
      stack := zmk fun z => (zget d.stack z).filter (· != i)
      wait := zmk fun z => (zget d.wait z).filter (· != i) }

/-- The order of the classes: A above B above C. -/
def classRank : Class → Nat
  | .a => 0
  | .b => 1
  | .c => 2

/-- The rank of a slot's directive; one below every class for a slot without a working record. -/
def slotRank (s : State) (i : Slot) : Nat :=
  match (slotRec s i).work with
  | some w => classRank w.cls
  | none => 3

/-- Wait-list order: by class, then due stamp, then slot number (R47). -/
def waitsBefore (s : State) (i j : Slot) : Bool :=
  let key := fun k => (slotRank s k, (slotRec s k).due.getD 0, k.val)
  let a := key i
  let b := key j
  if a.1 ≠ b.1 then decide (a.1 < b.1)
  else if a.2.1 ≠ b.2.1 then decide (a.2.1 < b.2.1)
  else decide (a.2.2 < b.2.2)

/-- A slot put into a list before the first member that a test lets it precede. -/
def insertBefore (precedes : Slot → Bool) (i : Slot) : List Slot → List Slot
  | [] => [i]
  | j :: rest => if precedes j then i :: j :: rest else j :: insertBefore precedes i rest

end Sys2Proof.Machine
end

