-- ==== Sys2Proof/Machine/Measurement.lean ====
section
/-! DEFINITION. The Measurement Unit: channels, zone measurements, the status line filters and the vehicle
copy (chapter 7). -/

namespace Sys2Proof.Machine

/-! ## Channels (R110 to R113) -/

/-- A channel's state (R112). -/
def channelState (holdLimit : Nat) (c : ChannelRec) : ChannelState :=
  if c.value.isNone then .none
  else if c.node = .failed ∨ holdLimit < c.age then .failed
  else if c.age ≤ 1 then .fresh
  else .held

/-- A channel's value when it is usable: FRESH or HELD (R112). -/
def usableValue (holdLimit : Nat) (c : ChannelRec) : Option Int :=
  match channelState holdLimit c with
  | .fresh | .held => c.value
  | .none | .failed => none

/-- The value of a channel number when that channel is usable; an absent designated channel (31) never is
(R117). -/
def channelValue (s : State) (n : Nat) : Option Int :=
  match s.mc.config with
  | none => none
  | some c => if h : n < 16 then usableValue c.holdLimit (s.mu.channels.get ⟨n, h⟩) else none

/-- The judgment of a handed value, a 16-bit number, by a channel (R110). -/
def judgeValue (cfg : ChannelCfg) (raw : Nat) (c : ChannelRec) : ChannelRec :=
  let v := signedOf 16 raw
  if raw = 0x8000 ∨ v < cfg.plausLo ∨ cfg.plausHi < v then { c with rangeFault := true }
  else { c with value := some v, age := 0, rangeFault := false }

/-- Every enabled channel that names a node is changed by a function of its entry (R110, R112). -/
def onNodeChannels (address : Nat) (f : ChannelCfg → ChannelRec → ChannelRec) (s : State) : State :=
  match s.mc.config with
  | none => s
  | some c =>
    s.onMu fun m =>
      { m with
        channels := vmap m.channels fun i r =>
          let e := c.channels.get i
          if e.enable && e.node == address then f e r else r }

/-- The MU takes a SAMPLE exchange's results for a node: its values, when the reply was good, and its state
(R100, R110, R112). -/
def takeSample (address : Nat) (values : Option (List Nat)) (st : NodeState) (s : State) : State :=
  onNodeChannels address
    (fun e r =>
      let r := match values with
        | none => r
        | some vs => judgeValue e (vs.getD e.index 0x8000) r
      { r with node := st })
    s

/-- The MU ages every enabled channel that is not NONE, stopping at hold_limit + 1 (R111). -/
def ageChannels (s : State) : State :=
  match s.mc.config with
  | none => s
  | some c =>
    s.onMu fun m =>
      { m with
        channels := vmap m.channels fun i r =>
          if (c.channels.get i).enable && r.value.isSome then { r with age := min (r.age + 1) (c.holdLimit + 1) }
          else r }

/-- PARKED entry: every channel that is not NONE has its age set to hold_limit + 1 (R113). -/
def parkChannels (s : State) : State :=
  match s.mc.config with
  | none => s
  | some c =>
    s.onMu fun m =>
      { m with
        channels := vmap m.channels fun _ r =>
          if r.value.isSome then { r with age := c.holdLimit + 1 } else r }

/-- Every channel becomes NONE, its value and age discarded (R113: PORT_RESET, a successful CONFIGURE). -/
def clearChannels (s : State) : State :=
  s.onMu fun m => { m with channels := Vector.replicate 16 ChannelRec.reset }

/-- Every node state is handed to the MU as UNKNOWN (R100: LINK_RESET). -/
def handUnknownToChannels (s : State) : State :=
  s.onMu fun m => { m with channels := vmap m.channels fun _ r => { r with node := .unknown } }

/-! ## Zone measurements (R114 to R116) -/

/-- The aggregation of the usable values, in list order (R114). -/
def aggregate (agg : Option Aggregation) : List Int → Option Int
  | [] => none
  | v :: vs =>
    match agg with
    | some .max => some (vs.foldl max v)
    | some .mean => some (floorDiv (v :: vs).sum ((v :: vs).length : Int))
    | some .first => some v
    | none => none

/-- A zone's measurement: `none` when it is invalid (R114). -/
def measurement (s : State) (z : Zone) : Option Int :=
  match zoneCfg s z with
  | none => none
  | some c => aggregate c.agg (c.channels.filterMap (channelValue s))

/-- The MU recomputes the zone measurements: each valid one becomes the zone's last valid measurement (R115),
and in ACTIVE the degraded flags follow, each setting of a clear flag raising FAULT (R116). -/
def recomputeMeasurements (s : State) : State :=
  let kept := s.onMu fun m =>
    { m with
      lastValid := zmk fun z =>
        match measurement s z with
        | some v => some v
        | none => zget m.lastValid z }
  if s.mc.state = .active then
    raiseIf (allZones.any fun z => (measurement s z).isNone && !zget s.mu.degraded z) .fault
      (kept.onMu fun m => { m with degraded := zmk fun z => (measurement s z).isNone })
  else kept

/-- The degraded flags are cleared (R116). -/
def clearDegraded (s : State) : State := s.onMu fun m => { m with degraded := zmk fun _ => false }

/-! ## Status line filters (R118) -/

/-- One sample at a filter with count N: the filter after it, and whether it accepts a change (R118). -/
def filterSample (count : Nat) (level : Bool) (f : Filter) : Filter × Bool :=
  if level = f.accepted then ({ f with run := 0 }, false)
  else if count < f.run + 1 then (⟨level, 0⟩, true)
  else ({ f with run := f.run + 1 }, false)

/-! ## The vehicle copy (R121 to R123) -/

/-- A commit copies the page and starts the time since the last commit at 0 (R121). -/
def takeCommit (s : State) : State :=
  s.onMu fun m => { m with copy := ⟨pageBudget s.xm, zmk (pageFf s.xm), true⟩, commitAge := some 0 }

/-- The copy takes its degraded form and its time is no longer counted (R122). -/
def degradeCopy (s : State) : State :=
  s.onMu fun m => { m with copy := ⟨floorGrant s, zmk fun _ => 0, false⟩, commitAge := none }

/-- The grant timeout: STALE is raised and the copy takes its degraded form (R122). -/
def copyGoesStale (s : State) : State := degradeCopy (raise .stale s)

/-- The time since the last commit has reached the grant timeout (R122). -/
def grantExpired (s : State) : Bool :=
  match s.mc.config, s.mu.commitAge with
  | some c, some t => s.mu.copy.current && decide (c.grantTimeout * 1000 ≤ t)
  | _, _ => false

/-- A successful CONFIGURE judges the copy against the new grant timeout; a copy already degraded takes the
new floor grant (R122). -/
def judgeCopy (s : State) : State :=
  if s.mu.copy.current then if grantExpired s then copyGoesStale s else s
  else s.onMu fun m => { m with copy := { m.copy with budget := floorGrant s } }

end Sys2Proof.Machine
end

