-- ==== Sys2Proof/Machine/Defrost.lean ====
section
/-! DEFINITION. The Defrost Controller's run (chapter 11). -/

namespace Sys2Proof.Machine

/-- The run record changed. -/
def onRun (f : RunRec → RunRec) (s : State) : State := s.onDc fun d => { d with run := f d.run }

/-- melt_max in milliseconds (R180). -/
def meltLimit (s : State) : Nat :=
  match s.mc.config with
  | none => 0
  | some c => c.plant.meltMax * 1000

/-- suspend_max in milliseconds (R185). -/
def suspendLimit (s : State) : Nat :=
  match s.mc.config with
  | none => 0
  | some c => c.plant.suspendMax * 60000

/-- The evaporator test: the evaporator outlet channel is usable and stands at or above melt_end (R180). -/
def evaporatorClear (s : State) : Bool :=
  match s.mc.config with
  | none => false
  | some c =>
    match channelValue s c.plant.evapOutlet with
    | none => false
    | some v => decide (c.plant.meltEnd ≤ v)

/-- The run enters DRIP with the phase timer at 0. -/
def enterDrip (s : State) : State := onRun (fun r => { r with state := .drip, phaseTimer := 0 }) s

/-- The evaporator test at an event at which the MU changes a channel's value or state (R180). -/
def meltTest (s : State) : State :=
  if s.dc.run.state = .melt ∧ evaporatorClear s = true then enterDrip s else s

/-- The run enters MELT, keeping its MELT time, and leaves it at once where the evaporator test holds or the
MELT time stands at its limit (R180). -/
def enterMelt (s : State) : State :=
  let t := onRun (fun r => { r with state := .melt, phaseTimer := 0 }) s
  if evaporatorClear t || decide (meltLimit t ≤ t.dc.run.meltTime) then enterDrip t else t

/-- A run starts in PREPARE (R178). -/
def startRun (origin : Origin) (suspendable : Bool) (s : State) : State :=
  onRun (fun _ => { RunRec.idle with state := .prepare, origin := some origin, suspendable := suspendable }) s

/-- An abort acts by the run state (R186). -/
def abortRun (cause : AbortCause) (s : State) : State :=
  match s.dc.run.state with
  | .idle => s
  | .restore =>
    if s.dc.run.aborted.isNone then onRun (fun r => { r with aborted := some cause }) s else s
  | .prepare | .melt | .drip | .suspended =>
    onRun
      (fun r =>
        { r with
          state := .restore
          phaseTimer := 0
          pendingSuspend := false
          remembered := none
          aborted := some cause })
      s

/-- A due PROCEDURE or AUTO request starts a run; with HVOK deasserted a PROCEDURE's run is aborted at the
same event (R178). -/
def startProcedureRun (n : Slot) (suspendable : Bool) (s : State) : State :=
  let t := startRun (.slot n) suspendable s
  if accepted t .hvok then t else abortRun .hvok t

/-- The new suspend count is reported to the origin slot (R57, R182). -/
def reportSuspension (s : State) : State :=
  match s.dc.run.origin with
  | some (.slot n) => mapSlot n (fun r => { r with suspendCount := s.dc.run.suspendCount }) s
  | _ => s

/-- A suspension (R182, steps 1 to 6; R183): the phase is remembered, the phase timer stops, the suspend count
grows and the resume count becomes 0. A suspended time already at its limit aborts the run at once (R185). -/
def suspendRun (phase : RememberedPhase) (s : State) : State :=
  let t := reportSuspension
    (onRun
      (fun r =>
        { r with
          state := .suspended
          remembered := some phase
          suspendCount := r.suspendCount + 1
          resumeCount := 0
          pendingSuspend := false })
      s)
  if suspendLimit t ≤ t.dc.run.suspendedTime then abortRun .suspendTime t else t

/-- A pass completion's suspend request, or its absence, acts on the run (R182 to R184). -/
def suspendTest (chillP : Bool) (s : State) : State :=
  let r := s.dc.run
  let request := r.suspendable && chillP
  match r.state with
  | .idle | .restore => s
  | .prepare => if request then onRun (fun r => { r with pendingSuspend := true }) s else s
  | .melt => if request && decide (r.suspendCount < 3) then suspendRun .melt s else s
  | .drip => if request && decide (r.suspendCount < 3) then suspendRun .drip s else s
  | .suspended =>
    if request then onRun (fun r => { r with resumeCount := 0 }) s
    else
      let delay := match s.mc.config with
        | none => 0
        | some c => c.plant.resumeDelay
      if delay ≤ r.resumeCount + 1 then
        onRun (fun r => { r with resumeCount := r.resumeCount + 1, state := .prepare, phaseTimer := 0 }) s
      else onRun (fun r => { r with resumeCount := r.resumeCount + 1 }) s

/-- An AUTO request (R178): a run starts in ACTIVE, with no run in progress and HVOK asserted. -/
def autoRequest (s : State) : State :=
  match s.mc.config with
  | none => s
  | some c =>
    if s.mc.state = .active ∧ s.dc.run.state = .idle ∧ accepted s .hvok = true then
      startRun .auto c.plant.autoSuspendable s
    else s

/-- The expiry of PREPARE's timer (R179, R183): the phase timer becomes 0, and a pending suspend is judged. -/
def prepareEnds (s : State) : State :=
  let r := s.dc.run
  if r.pendingSuspend && decide (r.suspendCount < 3) then
    suspendRun (r.remembered.getD .melt) (onRun (fun r => { r with phaseTimer := 0 }) s)
  else
    let t := onRun (fun r => { r with pendingSuspend := false, remembered := none }) s
    match r.remembered with
    | some .drip => enterDrip t
    | some .melt | none => enterMelt t

/-- The last-run record of a run that ends now (R187, R188). -/
def lastRunOf (r : RunRec) (cause : Option AbortCause) : LastRun :=
  ⟨r.origin, cause, r.suspendCount, r.suspendedTime⟩

/-- QUIESCING entry ends a run at once, without RESTORE (R188). -/
def quiesceRun (s : State) : State :=
  if s.dc.run.state = .idle then s
  else s.onDc fun d => ⟨RunRec.idle, some (lastRunOf d.run (some .quiesce))⟩

end Sys2Proof.Machine
end

