-- ==== Sys2Proof/Machine/Directives.lean ====
section
/-! DEFINITION. The Directive Unit's operations: the stacks and wait lists, becoming due, the schedule
evaluation, the ends, and the four slot actions (chapters 3 and 5). -/

namespace Sys2Proof.Machine

/-! ## Stacks and wait lists (R45 to R48) -/

/-- A slot enters WAITING and joins its zone's wait list in its place in the order (R47); its SETTLED count is
lost (R46, R51). -/
def joinWait (z : Zone) (reason : Reason) (i : Slot) (s : State) : State :=
  let t := mapSlot i
    (fun r => mapWork (fun w => { w with settledCount := 0 }) { r with state := .waiting, reason := some reason })
    (leaveLists i s)
  setWait z (insertBefore (waitsBefore t i) i (waitOf t z)) t

/-- Placement (R45): the slot becomes ACTIVE and stands above every entry of its own and of a lower class
(R59). -/
def placeEntry (z : Zone) (i : Slot) (s : State) : State :=
  let t := mapSlot i
    (fun r =>
      mapWork (fun w => { w with settledCount := 0 }) { r with state := .active, reason := none, placed := true })
    (leaveLists i s)
  setStack z (insertBefore (fun j => decide (slotRank t i ≤ slotRank t j)) i (stackOf t z)) t

/-- A zone's free places are filled from the head of its wait list, at most `n` of them (R48). -/
def fillZone (z : Zone) : Nat → State → State
  | 0, s => s
  | n + 1, s =>
    match waitOf s z with
    | [] => s
    | i :: _ => if (stackOf s z).length < Config.stackCapacity then fillZone z n (placeEntry z i s) else s

/-- In ACTIVE, every free place of a zone is filled (R48). -/
def refill (s : State) : State :=
  if s.mc.state = .active then allZones.foldl (fun t z => fillZone z Config.stackCapacity t) s else s

/-- The rank of the lowest class in a list of slots. -/
def lowestRank (s : State) (l : List Slot) : Nat := l.foldl (fun m j => max m (slotRank s j)) 0

/-- A newcomer that the fill left waiting (R46): it is placed in a free place, or displaces the most recently
placed entry of the lowest class when that class is lower than its own, or goes on waiting. -/
def takeNewcomer (z : Zone) (s : State) (i : Slot) : State :=
  if (stackOf s z).length < Config.stackCapacity then placeEntry z i s
  else
    let low := lowestRank s (stackOf s z)
    if slotRank s i < low then
      match (stackOf s z).find? fun j => slotRank s j == low with
      | some victim => placeEntry z i (joinWait z .stackFull victim s)
      | none => s
    else s

/-- Step 4 of R44 in one zone, with the slots that became due in this evaluation. -/
def placeZone (newcomers : List Slot) (s : State) (z : Zone) : State :=
  let t := fillZone z Config.stackCapacity s
  ((waitOf t z).filter newcomers.contains).foldl (takeNewcomer z) t

/-! ## Ends (R49 to R55) -/

/-- A directive goes to ENDED (R54). Its working record is discarded here, as R54 says.
DESIGN CHOICE (notes/assumptions/58.md): R34 keeps the record until the slot is EMPTY. -/
def endSlot (o : Outcome) (i : Slot) (s : State) : State :=
  raiseIf (o != .quiesced) .slotEnd
    (mapSlot i (fun r => { r with state := .ended, reason := none, outcome := some o, work := none })
      (leaveLists i s))

/-- A DAILY run ends and its slot returns to PENDING (R55). -/
def runEnd (o : RunOutcome) (i : Slot) (s : State) : State :=
  mapSlot i
    (fun r =>
      mapWork (fun w => { w with durationCount := 0, settledCount := 0 })
        { r with
          state := .pending
          reason := none
          runCount := min (r.runCount + 1) 65535
          lastRun := some o
          firedOn := r.due.map (· / 1440)
          due := none
          placed := false
          suspendCount := 0 })
    (leaveLists i s)

/-- The outcomes that end a DAILY directive's run and not its slot (R55). -/
def runOutcomeOf : Outcome → Option RunOutcome
  | .completed => some .completed
  | .expired => some .expired
  | .aborted => some .aborted
  | .reached | .late | .retracted | .refused | .quiesced | .noWake => none

/-- A directive with a DAILY start; a REACH has no start of its own. -/
def isDaily (w : Working) : Bool :=
  match w.start with
  | .daily _ _ => true
  | .now | .at _ | .after _ | .onLine _ => false

/-- A directive's own end, with its outcome: a DAILY directive's run ends under R55, unless a RETRACT has been
taken during it (R40); any other directive ends under R54. -/
def endDirective (o : Outcome) (i : Slot) (s : State) : State :=
  match (slotRec s i).work, runOutcomeOf o with
  | some w, some ro => if isDaily w && !w.retracted then runEnd ro i s else endSlot o i s
  | _, _ => endSlot o i s

/-- A calendar time is reached: the clock is SET and the present stamp is at or after it (R49, R53, R81). -/
def stampReached (s : State) (stamp : Nat) : Bool := s.cc.set && decide (stamp ≤ nowStamp s)

/-- The outcome of a SETPOINT ended by AT or DURATION (R54). -/
def setpointOutcome (r : SlotRec) : Outcome := if r.placed then .completed else .expired

/-- The outcome of a REACH at its end point (R53). -/
def reachOutcome (r : SlotRec) : Outcome := if r.met = .met then .reached else .late

/-- The end a due directive has reached at an evaluation (R49, R50, R53). -/
def endReached (minute : Bool) (s : State) (i : Slot) : Option Outcome :=
  let r := slotRec s i
  match r.work with
  | none => none
  | some w =>
    if r.state = .waiting ∨ r.state = .active then
      match w.kind with
      | .procedure => none
      | .reach => if stampReached s (w.deadline + w.holdAfter) then some (reachOutcome r) else none
      | .setpoint =>
        match w.ending with
        | .at t => if stampReached s t then some (setpointOutcome r) else none
        | .duration n => if minute && w.durationCount == n then some (setpointOutcome r) else none
        | .none | .settled _ => none
    else none

/-- Step 2 of R44 for one slot. -/
def takeEnd (minute : Bool) (s : State) (i : Slot) : State :=
  match endReached minute s i with
  | some o => endDirective o i s
  | none => s

/-- A temperature lies within a directive's own band (R51, R52, R63). -/
def insideBand (w : Working) (m : Int) : Bool :=
  match w.combine with
  | .replace | .blend => decide (w.target - w.halfBand ≤ m) && decide (m ≤ w.target + w.halfBand)
  | .floor => decide (w.target ≤ m)
  | .ceiling => decide (m ≤ w.target)

/-- Step 1 of R44 for one slot: a REACH's met evaluation, made once (R52). -/
def metEvaluation (s : State) (i : Slot) : State :=
  let r := slotRec s i
  match r.work with
  | none => s
  | some w =>
    if w.kind = .reach ∧ r.met = .notYet ∧ stampReached s w.deadline = true then
      let inside := match measurement s w.zone with
        | some m => insideBand w m
        | none => false
      setSlot i { r with met := if inside then .met else .notMet } s
    else s

/-! ## Starts (R43, R82 to R88) -/

/-- The lead time of a REACH, in minutes (R87). -/
def leadTime (s : State) (z : Zone) (target : Int) : Nat :=
  match zoneCfg s z with
  | none => 720
  | some c =>
    let m := match measurement s z with
      | some v => some v
      | none => zget s.mu.lastValid z
    match m with
    | none => 720
    | some v => (clamp (ceilDiv ((target - v).natAbs * c.lag) 60 + c.leadMargin) 0 720).toNat

/-- The counts that grow at a minute event, and the leads recomputed at it (R50, R85, R87). -/
def growCounts (s : State) : State :=
  allSlots.foldl
    (fun t i =>
      let r := slotRec t i
      let grow := fun (w : Working) =>
        if r.state = .pending then
          match w.kind, w.start with
          | .reach, _ => { w with lead := leadTime s w.zone w.target }
          | _, .after _ => { w with afterCount := w.afterCount + 1 }
          | _, _ => w
        else
          match w.ending with
          | .duration _ => { w with durationCount := w.durationCount + 1 }
          | .none | .at _ | .settled _ => w
      setSlot i (mapWork grow r) t)
    s

/-- A DAILY start is met (R83). -/
def dailyMet (s : State) (firedOn : Option Nat) (minuteOfDay weekdays : Nat) : Bool :=
  let tod := nowStamp s % 1440
  s.cc.set && firedOn != some (nowDate s) && weekdays.testBit (weekdayOf (nowDate s))
    && decide (minuteOfDay ≤ tod) && decide (tod < minuteOfDay + catchWindow s)

/-- A PENDING directive's start is met at an evaluation (R81 to R88). -/
def startMet (minute : Bool) (s : State) (r : SlotRec) (w : Working) : Bool :=
  match w.kind with
  | .reach => s.cc.set && decide (w.deadline ≤ nowStamp s + w.lead)
  | .setpoint | .procedure =>
    match w.start with
    | .now => true
    | .at t => stampReached s t
    | .daily hm days => dailyMet s r.firedOn hm days
    | .after n => minute && w.afterCount == n
    | .onLine l => accepted s l

/-- A directive that becomes due while PARKED asserts the wake line when it carries WAKE (R31). -/
def wakeAssert (w : Working) (s : State) : State :=
  match s.mc.config with
  | none => s
  | some c =>
    if s.mc.state = .parked ∧ w.wake = true then
      raise .wake (s.onMc fun m => { m with wake := true, wakeTimer := some (c.wakeTimeout * 60000) })
    else s

/-- A due PROCEDURE is handed to the DC (R56). -/
def handToDefrost (w : Working) (i : Slot) (s : State) : State :=
  if s.mc.state = .active ∧ s.dc.run.state = .idle then
    startProcedureRun i w.suspendable (mapSlot i (fun r => { r with state := .active }) s)
  else
    let why := if s.mc.state = .active then SlotResult.busy else SlotResult.notActive
    endSlot .refused i (mapSlot i (fun r => { r with result := why }) s)

/-- The end that a directive finds already reached as it becomes due (R43, step 3). -/
def endAtDue (s : State) (r : SlotRec) (w : Working) : Option Outcome :=
  match w.kind, w.ending with
  | .setpoint, .at t => if stampReached s t then some .expired else none
  | .reach, _ => if stampReached s (w.deadline + w.holdAfter) then some (reachOutcome r) else none
  | _, _ => none

/-- A directive becomes due (R43). A SETPOINT or REACH in ACTIVE joins its wait list as a newcomer, whose
placement step 4 of R44 decides; the flag says so. -/
def becomeDue (w : Working) (i : Slot) (s : State) : State × Bool :=
  let t := mapSlot i
    (fun r => mapWork (fun w => { w with durationCount := 0 }) { r with due := some (r.due.getD (nowStamp s)) }) s
  match w.kind with
  | .procedure => (handToDefrost w i t, false)
  | .setpoint | .reach =>
    match endAtDue t (slotRec t i) w with
    | some o => (endDirective o i t, false)
    | none =>
      if s.mc.state = .active then (joinWait w.zone .stackFull i t, true)
      else (wakeAssert w (joinWait w.zone .parked i t), false)

/-- Step 3 of R44 for one slot, with the newcomers so far. -/
def takeStart (minute : Bool) (acc : State × List Slot) (i : Slot) : State × List Slot :=
  let r := slotRec acc.1 i
  match r.state, r.work with
  | .pending, some w =>
    if startMet minute acc.1 r w then
      let (t, newcomer) := becomeDue w i acc.1
      (t, if newcomer then acc.2 ++ [i] else acc.2)
    else acc
  | _, _ => acc

/-- A schedule evaluation over some slots, in the order of R44.
DESIGN CHOICE (notes/assumptions/57.md): within a step the slots are taken lowest number first, so of several
PROCEDUREs that become due together the lowest slot's is handed to the DC first and the others are refused BUSY. -/
def evaluate (minute : Bool) (slots : List Slot) (s : State) : State :=
  let met := slots.foldl metEvaluation s
  let ended := slots.foldl (takeEnd minute) met
  let (started, newcomers) := slots.foldl (takeStart minute) (ended, [])
  if started.mc.state = .active then allZones.foldl (placeZone newcomers) started else started

/-- The schedule evaluation of every slot (R44, R77). -/
def scheduleEvaluation (minute : Bool) (s : State) : State :=
  evaluate minute allSlots (if minute then growCounts s else s)

/-! ## The DU's part in the events of other blocks -/

/-- PARKING entry (R24): ACTIVE SETPOINT and REACH directives leave their stacks for their wait lists, and
every waiting directive waits with reason PARKED. -/
def parkDirectives (s : State) : State :=
  let moved := allZones.foldl (fun t z => (stackOf s z).foldl (fun t i => joinWait z .parked i t) t) s
  allSlots.foldl
    (fun t i => if slotIs t .waiting i then mapSlot i (fun r => { r with reason := some .parked }) t else t)
    moved

/-- ACTIVE entry (R22): the waiting directives are placed in wait-list order up to the capacity; the others
wait with reason STACK_FULL. -/
def placeParked (s : State) : State :=
  let filled := allZones.foldl (fun t z => fillZone z Config.stackCapacity t) s
  allSlots.foldl
    (fun t i => if slotIs t .waiting i then mapSlot i (fun r => { r with reason := some .stackFull }) t else t)
    filled

/-- QUIESCING entry (R26): every PENDING, WAITING or ACTIVE slot ends QUIESCED. -/
def quiesceDirectives (s : State) : State :=
  allSlots.foldl
    (fun t i =>
      if slotIs t .pending i || slotIs t .waiting i || slotIs t .active i then endSlot .quiesced i t else t)
    s

/-- A slot waits with reason PARKED and carries WAKE (R32). -/
def waitsForWake (s : State) (i : Slot) : Bool :=
  let r := slotRec s i
  r.state == .waiting && r.reason == some .parked && r.work.any (·.wake)

/-- The wake timer's expiry ends every WAITING(PARKED) directive that carries WAKE (R32). -/
def endUnwoken (s : State) : State :=
  allSlots.foldl (fun t i => if waitsForWake t i then endSlot .noWake i t else t) s

/-- The SETTLED evaluation of one slot at a pass completion, with the measurements the pass used (R51).
DESIGN CHOICE (notes/assumptions/59.md): the band is that of the values in use at the completion, those of an AMEND
taken since the pass start included. -/
def settleSlot (used : Zones (Option Int)) (s : State) (i : Slot) : State :=
  let r := slotRec s i
  match r.state, r.work with
  | .active, some w =>
    match w.kind, w.ending with
    | .setpoint, .settled n =>
      let inside := match zget used w.zone with
        | some m => insideBand w m
        | none => false
      let count := if inside then w.settledCount + 1 else 0
      let t := mapSlot i (mapWork fun w => { w with settledCount := count }) s
      if count = n then endDirective .completed i t else t
    | _, _ => s
  | _, _ => s

/-- The SETTLED ends of a pass completion, and the places they free (R48, R51). -/
def settledEvaluation (used : Zones (Option Int)) (s : State) : State :=
  refill (allSlots.foldl (settleSlot used) s)

/-- The DC reports the end of a run that a slot started (R57). -/
def reportRunEnd (n : Slot) (o : Outcome) (s : State) : State := endDirective o n s

/-- A run ends at the expiry of its RESTORE timer (R187). -/
def restoreEnds (s : State) : State :=
  let r := s.dc.run
  let thawed := if r.aborted.isNone then s.onBe fun b => { b with frost := 0 } else s
  let recorded := thawed.onDc fun d => { d with last := some (lastRunOf r r.aborted) }
  let told := match r.origin with
    | some (.slot n) => reportRunEnd n (if r.aborted.isNone then .completed else .aborted) recorded
    | some .auto | none => recorded
  told.onDc fun d => { d with run := RunRec.idle }

/-! ## The slot actions (R35 to R41) -/

/-- A slot's result item. -/
def setResult (res : SlotResult) (i : Slot) (s : State) : State := mapSlot i (fun r => { r with result := res }) s

/-- Tests 1 and 3 of R35 before an action on a slot. -/
def slotGate (taken : SlotState → Bool) (i : Slot) (act : State → State) (s : State) : State :=
  if s.mc.state = .unconfigured then setResult .refusedMode i s
  else if taken (slotRec s i).state then act s
  else setResult .refusedState i s

/-- The zone of a body, where the kind uses it and it is one of the five (R36, check 2). -/
def bodyZone (b : Body) : Option Zone := zoneOfNumber b.zone

/-- The AT stamps and the deadline that a body's kind uses (R36, check 7). -/
def bodyStamps (kind : Kind) (b : Body) : List Nat :=
  let startStamp := if b.startCode = 1 then [b.startParam] else []
  match kind with
  | .setpoint => startStamp ++ (if b.endCode = 1 then [b.endParam] else [])
  | .reach => [b.deadline]
  | .procedure => startStamp

/-- The code of the first check of R36 that a body fails, for a body whose kind passes check 1. -/
def bodyRefusal (s : State) (kind : Kind) (b : Body) : Option SlotResult :=
  let scheduled := kind != .reach
  let layered := kind != .procedure
  if layered && (bodyZone b).isNone then some .badZone
  else if layered && (classOf b.cls).isNone then some .badClass
  else if layered && ((combineOf b.combine).isNone || (kind == .reach && b.combine != 0)) then some .badCombine
  else if scheduled && (startOf b).isNone then some .badStart
  else if kind == .setpoint && (endOf b).isNone then some .badEnd
  else if (bodyStamps kind b).any fun t => decide (Config.lastStamp < t) then some .badStamp
  else if !s.cc.set && (kind == .reach || b.startCode == 1 || b.startCode == 2) then some .unsetClock
  else if kind == .reach && decide (b.deadline < nowStamp s) then some .past
  else if scheduled && b.startCode == 1 && decide (b.startParam + catchWindow s < nowStamp s) then some .past
  else if kind == .procedure && s.dc.run.state != .idle then some .busy
  else none

/-- R36: the kind of a body that a POST takes, or the code it is refused with. -/
def postJudgment (s : State) (b : Body) : Except SlotResult Kind :=
  match kindOf b.kind with
  | none => .error .badKind
  | some kind =>
    if kind = .procedure ∧ b.procedure ≠ 0 then .error .badKind
    else
      match bodyRefusal s kind b with
      | some code => .error code
      | none => .ok kind

/-- A target clamped into a zone's target range in the committed configuration (R37). -/
def clampTarget (s : State) (z : Zone) (t : Int) : Int :=
  match zoneCfg s z with
  | none => t
  | some c => clamp t c.limits.tmin c.limits.tmax

/-- The working record a POST makes: the fields the kind uses, clamped (R33, R37). Fields the kind does not use
stand at 0, NOW, NONE or absent. -/
def workingOf (s : State) (kind : Kind) (b : Body) : Working :=
  let z := (bodyZone b).getD .packA
  let combine := match kind with
    | .setpoint => (combineOf b.combine).getD .replace
    | .reach | .procedure => .replace
  let layered := kind ≠ .procedure
  let banded := combine = .replace ∨ combine = .blend
  { kind := kind
    zone := if layered then z else .packA
    cls := if layered then (classOf b.cls).getD .a else .a
    weight := if layered then clampNat b.weight 1 15 else 0
    combine := combine
    alpha := if combine = .blend then some (clampNat b.alpha 1 15) else none
    target := if layered then clampTarget s z b.target else 0
    halfBand := if layered ∧ banded then clampNat b.halfBand 0 100 else 0
    start := if kind = .reach then .now else (startOf b).getD .now
    ending := if kind = .setpoint then (endOf b).getD .none else .none
    deadline := if kind = .reach then b.deadline else 0
    holdAfter := if kind = .reach then clampNat b.holdAfter 0 240 else 0
    wake := b.wake && decide layered
    suspendable := b.suspendable && decide (kind = .procedure)
    durationCount := 0
    settledCount := 0
    afterCount := 0
    lead := if kind = .reach then leadTime s z (clampTarget s z b.target) else 0
    retracted := false }

/-- POST on an EMPTY slot of a configured device (R36, R37). -/
def takePost (i : Slot) (s : State) : State :=
  let b := bodyOf s.xm i
  match postJudgment s b with
  | .error code => endSlot .refused i (setResult code i s)
  | .ok kind =>
    evaluate false [i]
      (setSlot i { SlotRec.empty with state := .pending, result := .done, work := some (workingOf s kind b) } s)

/-- A working record after an AMEND's fields that are present (R38). -/
def amendWorking (s : State) (amend : Option Int × Option Nat × Option Nat) (w : Working) : Working :=
  let (target, halfBand, weight) := amend
  { w with
    target := match target with
      | some t => clampTarget s w.zone t
      | none => w.target
    halfBand := match halfBand with
      | some b => clampNat b 0 100
      | none => w.halfBand
    weight := match weight with
      | some v => clampNat v 1 15
      | none => w.weight
    settledCount := if target.isSome || halfBand.isSome then 0 else w.settledCount }

/-- AMEND on a PENDING, WAITING or ACTIVE slot (R35 test 4, R38). -/
def takeAmend (i : Slot) (s : State) : State :=
  match (slotRec s i).work with
  | none => setResult .done i s
  | some w =>
    if w.kind = .procedure then setResult .refusedKind i s
    else setResult .done i (mapSlot i (mapWork (amendWorking s (amendOf s.xm i))) s)

/-- The run in progress was started by a slot. -/
def runIsOf (s : State) (i : Slot) : Bool := s.dc.run.origin == some (.slot i)

/-- RETRACT on a PENDING, WAITING or ACTIVE slot (R39, R40). -/
def takeRetract (i : Slot) (s : State) : State :=
  let t := setResult .done i s
  let r := slotRec s i
  if r.state = .active ∧ r.work.any (fun w => decide (w.kind = .procedure)) = true then
    let marked := mapSlot i (mapWork fun w => { w with retracted := true }) t
    if runIsOf s i then abortRun .retract marked else marked
  else refill (endSlot .retracted i t)

/-- RELEASE on an ENDED slot (R41). -/
def takeRelease (i : Slot) (s : State) : State := setSlot i { SlotRec.empty with result := .done } s

/-- The slot states in which AMEND and RETRACT are taken (3.3). -/
def liveState : SlotState → Bool
  | .pending | .waiting | .active => true
  | .empty | .ended => false

/-- PORT_RESET at the DU (R58): every control and status word becomes 0, every working record, stack and wait
list is emptied; bodies and amend words are kept. -/
def resetDirectives (s : State) : State :=
  let cleared := s.onDu fun _ => DU.reset
  { cleared with xm := memFill s.xm (allSlots.map fun i => slotAddr i 0) 0 }

end Sys2Proof.Machine
end

