-- ==== Sys2Proof/Machine/Compose.lean ====
section
/-! DEFINITION. Goal composition (chapter 4). -/

namespace Sys2Proof.Machine

/-- A band of temperatures, either side of which may be absent (R61). -/
structure Band where
  lo : Option Int
  hi : Option Int
  deriving DecidableEq, Repr

/-- The band with both sides absent. -/
def Band.open : Band := ⟨none, none⟩

/-- A side that a FLOOR raises: the greater of the side and T, or T when it is absent (R65). -/
def raiseSide (side : Option Int) (t : Int) : Int :=
  match side with
  | none => t
  | some v => max v t

/-- A side that a CEILING lowers: the lesser of the side and T, or T when it is absent (R66). -/
def lowerSide (side : Option Int) (t : Int) : Int :=
  match side with
  | none => t
  | some v => min v t

/-- A side that a BLEND moves by `alpha` sixteenths toward U, or U when it is absent (R67). -/
def blendSide (alpha : Nat) (side : Option Int) (u : Int) : Int :=
  match side with
  | none => u
  | some l => l + truncDiv (alpha * (u - l)) 16

/-- A FLOOR over a band: a crossing sets hi to lo (R65). -/
def floorLayer (t : Int) (b : Band) : Band :=
  let lo := raiseSide b.lo t
  ⟨some lo, b.hi.map fun hi => max hi lo⟩

/-- A CEILING over a band: a crossing sets lo to hi (R66). -/
def ceilingLayer (t : Int) (b : Band) : Band :=
  let hi := lowerSide b.hi t
  ⟨b.lo.map fun lo => min lo hi, some hi⟩

/-- A BLEND over a band: with exactly one side absent below, a crossing sets the blended side to the side taken
from the entry (R67). -/
def blendLayer (alpha : Nat) (t b : Int) (below : Band) : Band :=
  let lo := blendSide alpha below.lo (t - b)
  let hi := blendSide alpha below.hi (t + b)
  if lo ≤ hi then ⟨some lo, some hi⟩
  else if below.lo.isNone then ⟨some lo, some lo⟩
  else ⟨some hi, some hi⟩

/-- One entry applied over the band built so far (R62 to R67). -/
def applyEntry (w : Working) (below : Band) : Band :=
  match w.combine with
  | .replace => ⟨some (w.target - w.halfBand), some (w.target + w.halfBand)⟩
  | .floor => floorLayer w.target below
  | .ceiling => ceilingLayer w.target below
  | .blend => blendLayer (w.alpha.getD 1) w.target w.halfBand below

/-- The layers of a stack's applied entries, given top to bottom and taken from the bottom (R62). -/
def layers (entries : List Working) : Band := entries.foldr applyEntry Band.open

/-- The high clamp (R69). -/
def highClamp (c : Int) (b : Band) : Band :=
  let hi := lowerSide b.hi c
  ⟨b.lo.map fun lo => min lo hi, some hi⟩

/-- The low clamp (R70). -/
def lowClamp (c : Int) (b : Band) : Band :=
  let lo := raiseSide b.lo c
  ⟨some lo, b.hi.map fun hi => max hi lo⟩

/-- The protect clamp: the high clamp first, the low clamp after it (R69, R70). -/
def protectClamp (p : ZoneProtect) (b : Band) : Band :=
  match p.limits with
  | none => b
  | some l =>
    let high := if p.high then highClamp (l.softHi - l.margin) b else b
    if p.low then lowClamp (l.lowProtect + l.margin) high else high

/-- A zone's stack entries with their working records and marks: `true` for passed over, which under the hard
state is every entry of class B or C (R68). -/
def markedEntries (s : State) (z : Zone) : List (Slot × Bool × Working) :=
  (stackOf s z).filterMap fun i =>
    (slotRec s i).work.map fun w => (i, (zget s.pu.zones z).hard && w.cls != .a, w)

/-- A directive class as an allotment class. -/
def allotClass : Class → AllotClass
  | .a => .a
  | .b => .b
  | .c => .c

/-- The allotment class and weight of a zone (R71). -/
def classAndWeight (s : State) (z : Zone) (top : Option Working) : Option AllotClass × Nat :=
  let p := zget s.pu.zones z
  match measurement s z, zoneCfg s z with
  | none, some c => (c.fbClass.map allotClass, c.fbWeight)
  | none, none => (none, 0)
  | some _, _ =>
    if p.hard || p.high || p.low then (some .p, 15)
    else
      match top with
      | some w => (some (allotClass w.cls), w.weight)
      | none => (none, 0)

/-- A zone's composition at a pass start (R62). -/
def composeZone (s : State) (z : Zone) : Composition :=
  let marked := markedEntries s z
  let applied := marked.filter fun e => !e.2.1
  let goal := protectClamp (zget s.pu.zones z) (layers (applied.map fun e => e.2.2))
  let (cls, weight) := classAndWeight s z (applied.head?.map fun e => e.2.2)
  { lo := goal.lo
    hi := goal.hi
    cls := cls
    weight := weight
    top := applied.head?.map fun e => e.1
    entries := marked.map fun e => (e.1, e.2.1) }

end Sys2Proof.Machine
end

