-- ==== Sys2Proof/Machine/Protection.lean ====
section
/-! DEFINITION. The Protection Unit (chapter 10). -/

namespace Sys2Proof.Machine

/-- High protect after an evaluation with measurement m (R165). -/
def judgeHigh (l : Limits) (m : Int) (held : Bool) : Bool :=
  if held then !decide (m < l.softHi - l.hysteresis) else decide (l.softHi ≤ m)

/-- Low protect after an evaluation with measurement m (R166). -/
def judgeLow (l : Limits) (m : Int) (held : Bool) : Bool :=
  if held then !decide (l.lowProtect + l.hysteresis < m) else decide (m ≤ l.lowProtect)

/-- The hard state after an evaluation with measurement m (R167). -/
def judgeHard (l : Limits) (m : Int) (held : Bool) : Bool :=
  if held then !decide (m < l.softHi) else decide (l.hardHi ≤ m)

/-- The computed power allowance (R170). -/
def powerAllowance (l : Limits) (m : Int) : Int :=
  if m < l.softHi then 1000
  else if l.hardHi ≤ m then 0
  else floorDiv (1000 * (l.hardHi - m)) (l.hardHi - l.softHi)

/-- The computed charge allowance (R171). -/
def chargeAllowance (l : Limits) (m : Int) : Int :=
  if m ≤ l.coldZero then 0
  else if l.coldFull ≤ m then 1000
  else floorDiv (1000 * (m - l.coldZero)) (l.coldFull - l.coldZero)

/-- An allowance after an evaluation that computes a value (R172). -/
def publishAllowance (first : Bool) (rise computed : Int) (a : Allowance) : Allowance :=
  { computed := computed
    published :=
      if first || decide (computed ≤ a.published) then computed else min computed (a.published + rise) }

/-- A zone's states and power allowance after an evaluation (R164 to R168, R170, R172). -/
def evaluateZone (first : Bool) (fbPower : Int) (m : Option Int) (p : ZoneProtect) : ZoneProtect :=
  match p.limits with
  | none => p
  | some l =>
    match m with
    | none => { p with power := publishAllowance first l.riseStep fbPower p.power }
    | some v =>
      { p with
        high := judgeHigh l v p.high
        low := judgeLow l v p.low
        hard := judgeHard l v p.hard
        power := publishAllowance first l.riseStep (powerAllowance l v) p.power }

/-- A pack's charge allowance after an evaluation (R171, R172). -/
def evaluateCharge (first : Bool) (fbCharge : Int) (m : Option Int) (p : ZoneProtect) (a : Allowance) :
    Allowance :=
  match p.limits with
  | none => a
  | some l =>
    let computed := match m with
      | none => fbCharge
      | some v => chargeAllowance l v
    publishAllowance first l.riseStep computed a

/-- The PU after the evaluation of a period expiry (R164). -/
def evaluatedPu (s : State) (c : Cfg) : PU :=
  let zones := zmk fun z =>
    evaluateZone s.pu.firstPass (zget c.zones z).fbPower (measurement s z) (zget s.pu.zones z)
  let charge := fun z a =>
    evaluateCharge s.pu.firstPass (zget c.zones z).fbCharge (measurement s z) (zget s.pu.zones z) a
  { zones := zones
    chargeA := charge .packA s.pu.chargeA
    chargeB := charge .packB s.pu.chargeB
    firstPass := false }

/-- Some published allowance differs between two states of the PU (R173). -/
def publishedDiffers (p q : PU) : Bool :=
  allZones.any (fun z => (zget p.zones z).power.published != (zget q.zones z).power.published)
    || p.chargeA.published != q.chargeA.published || p.chargeB.published != q.chargeB.published

/-- Some zone enters the hard state between two states of the PU (R167). -/
def entersHard (p q : PU) : Bool :=
  allZones.any fun z => !(zget p.zones z).hard && (zget q.zones z).hard

/-- The evaluation of a period expiry in ACTIVE, with the flags it raises (R164 to R173). -/
def protectionEvaluation (s : State) : State :=
  match s.mc.config with
  | none => s
  | some c =>
    let q := evaluatedPu s c
    raiseIf (publishedDiffers s.pu q) .advisory
      (raiseIf (entersHard s.pu q) .fault (s.onPu fun _ => q))

/-- A zone's state at a pass start (R169). -/
def zoneStateOf (degraded : Bool) (p : ZoneProtect) (applied : Bool) : ZoneState :=
  if degraded then .degraded
  else if p.hard then .hard
  else if p.high || p.low then .protect
  else if applied then .normal
  else .idle

/-- The PU forms the zone states from the composition that the pass start made (R169). -/
def formZoneStates (s : State) : State :=
  s.onPu fun p =>
    { p with
      zones := zmk fun z =>
        let r := zget p.zones z
        { r with state := zoneStateOf (zget s.mu.degraded z) r (zget s.be.comp z).top.isSome } }

/-- LOCK_LIMITS: each named zone that is not locked records its limits in force (R175). -/
def lockZones (mask : Nat) (s : State) : State :=
  s.onPu fun p =>
    { p with
      zones := zmk fun z =>
        let r := zget p.zones z
        if mask.testBit (zoneNumber z) && r.locked.isNone then { r with locked := r.limits } else r }

/-- A successful CONFIGURE: the limits in force become the configured limits (R163). -/
def putLimits (c : Cfg) (s : State) : State :=
  s.onPu fun p =>
    { p with
      zones := zmk fun z => { zget p.zones z with limits := some (zget c.zones z).limits } }

/-- The PU at PORT_RESET: locks and locked values are kept, and are the limits in force (R30, R174, R176). -/
def resetProtection (s : State) : State :=
  s.onPu fun p =>
    { PU.reset with
      zones := zmk fun z =>
        let l := (zget p.zones z).locked
        { ZoneProtect.reset with limits := l, locked := l } }

/-- The first-pass mark (R172, R174). -/
def markFirstPass (b : Bool) (s : State) : State := s.onPu fun p => { p with firstPass := b }

end Sys2Proof.Machine
end

