-- ==== Sys2Proof/Machine/Balance.lean ====
section
/-! DEFINITION. The balance pass (chapter 8): everything a pass computes, from the inputs as they stand at its
start. -/

namespace Sys2Proof.Machine

/-! ## Availability (R129 to R132) -/

/-- A path's flag. -/
def pathFlag (p : Paths) : Path → Bool
  | .source => p.source
  | .sink => p.sink
  | .radiate => p.radiate
  | .chill => p.chill
  | .pump => p.pump
  | .resistive => p.resistive

/-- A zone's flag for a path (R131, R161). -/
def zonePath (s : State) (z : Zone) (p : Path) : Bool := pathFlag (zget s.au.paths z) p

/-- At least one enabled actuator has a source, and none of those is latched (R129). -/
def deviceHealthy (s : State) (c : Cfg) (src : Source) : Bool :=
  let acts := (vlist c.acts).filter fun a => a.2.enable && a.2.source == some src
  !acts.isEmpty && acts.all fun a => (s.au.acts.get a.1).latch.isNone

/-- The DC leaves the compressor to the balance (R129). -/
def compressorFree (s : State) : Bool := s.dc.run.state == .idle || s.dc.run.state == .suspended

/-- The compressor is available (R129). -/
def compressorAvailable (s : State) (c : Cfg) : Bool :=
  accepted s .hvok && deviceHealthy s c .compressorLoad && compressorFree s

/-- The heater is available (R129). -/
def heaterAvailable (s : State) (c : Cfg) : Bool := accepted s .hvok && deviceHealthy s c .heaterLoad

/-- Recovery runs (R130). -/
def recoveryAvailable (s : State) (c : Cfg) : Bool := compressorAvailable s c && c.plant.recoveryEnable

/-- Ambient pumping is available (R130). -/
def pumpingAvailable (s : State) (c : Cfg) : Bool :=
  compressorAvailable s c
    && (channelValue s c.plant.ambient).any (fun v => decide (c.plant.hpMinAmb ≤ v))
    && (channelValue s c.plant.evapOutlet).isSome

/-- Radiating is available (R130). -/
def radiatingAvailable (s : State) (c : Cfg) : Bool :=
  (channelValue s c.plant.radInlet).isSome && (channelValue s c.plant.ambient).isSome

/-- The effective budget: the copy's budget less the defrost draw (R132). -/
def effectiveBudget (s : State) (c : Cfg) : Int :=
  let budget := s.mu.copy.budget
  let draw := if s.dc.run.state = .melt then min c.plant.meltPower budget else 0
  max 0 (budget - draw)

/-- COPh_eff (R141). -/
def pumpCop (s : State) (c : Cfg) : Int :=
  c.plant.coph - floorDiv ((c.plant.coph - 10) * s.be.frost) c.plant.frostLimit

/-- The heat the radiator can reject (R140). -/
def radiatorHeat (s : State) (c : Cfg) : Int :=
  match channelValue s c.plant.radInlet, channelValue s c.plant.ambient with
  | some r, some a => min c.plant.fmax (c.plant.krad * max 0 (r - a))
  | _, _ => 0

/-! ## Demand (R133 to R135) -/

/-- The error of a measurement against a goal (R133). -/
def errorOf (lo hi : Option Int) (m : Int) : Int :=
  match lo, hi with
  | some l, some h => if m < l then l - m else if h < m then h - m else 0
  | some l, none => if m < l then l - m else 0
  | none, some h => if h < m then h - m else 0
  | none, none => 0

/-- The integral after a pass with error e (R135). -/
def nextIntegral (c : ZoneCfg) (prev : Previous) (i e : Int) : Int :=
  if e = 0 then i
  else if prev.unserved && e.sign == prev.sign then i
  else clamp (i + c.ki * e) (-c.imax) c.imax

/-- A zone's error, integral and demand (R134). -/
structure Demand where
  error : Option Int
  integral : Int
  d : Int
  deriving DecidableEq, Repr

/-- A zone's demand (R134). -/
def demandOf (c : ZoneCfg) (comp : Composition) (prev : Previous) (i ff : Int) (m : Option Int) : Demand :=
  match m with
  | none => ⟨none, 0, clamp c.fbDemand (-c.cmax) c.hmax⟩
  | some v =>
    let e := errorOf comp.lo comp.hi v
    if comp.cls.isNone then ⟨some e, 0, 0⟩
    else
      let i' := nextIntegral c prev i e
      ⟨some e, i', clamp (c.kp * e + i' + ff) (-c.cmax) c.hmax⟩

/-! ## The running account of a pass -/

/-- One zone's account: its class, weight, flags and demand, what remains of it, and what it has received. -/
structure ZoneAccount where
  cls : Option AllotClass
  weight : Nat
  paths : Paths
  d : Int
  heat : Int
  cool : Int
  recovered : Int
  radiated : Int
  chilled : Int
  pumped : Int
  resistive : Int
  deriving DecidableEq, Repr

/-- The account of a pass: the zones and the pools (R132, R140), with the uses of R145. -/
structure Account where
  zones : Zones ZoneAccount
  b : Int
  comp : Int
  heater : Int
  f : Int
  compUse : Int
  heatUse : Int
  radiated : Int
  deriving DecidableEq, Repr

/-- A zone's account before the first stage: its whole demand is residual. -/
def openAccount (comp : Composition) (paths : Paths) (d : Int) : ZoneAccount where
  cls := comp.cls
  weight := comp.weight
  paths := paths
  d := d
  heat := max d 0
  cool := max (-d) 0
  recovered := 0
  radiated := 0
  chilled := 0
  pumped := 0
  resistive := 0

/-- The sum over the zones of a quantity. -/
def sumZones (f : Zone → Int) : Int := (allZones.map f).sum

/-! ## Recovery (R137 to R139) -/

/-- H, C, R and the cost of a pass's recovery. -/
structure Recovery where
  h : Int
  c : Int
  r : Int
  cost : Int
  deriving DecidableEq, Repr

/-- What a zone asks of recovery's heating side (R137). -/
def sinkDemand (a : ZoneAccount) : Int := if a.paths.sink then max a.d 0 else 0

/-- What a zone offers recovery's cooling side (R137). -/
def sourceDemand (a : ZoneAccount) : Int := if a.paths.source then max (-a.d) 0 else 0

/-- Recovery's sums, the heat it moves and its cost (R137, R138). -/
def recoveryOf (p : Plant) (available : Bool) (a : Account) : Recovery :=
  if available then
    let h := sumZones fun z => sinkDemand (zget a.zones z)
    let c := sumZones fun z => sourceDemand (zget a.zones z)
    let r := min (min h c) p.tmaxHeat
    let cost := ceilDiv (r * 10) p.copr
    let pool := min a.b a.comp
    if pool < cost then
      let r' := floorDiv (pool * p.copr) 10
      ⟨h, c, r', ceilDiv (r' * 10) p.copr⟩
    else ⟨h, c, r, cost⟩
  else ⟨0, 0, 0, 0⟩

/-- A zone's share of recovery (R139). -/
def shareRecovery (v : Recovery) (a : ZoneAccount) : ZoneAccount :=
  let received := floorDiv (v.r * sinkDemand a) v.h
  let given := floorDiv (v.r * sourceDemand a) v.c
  { a with heat := a.heat - received, cool := a.cool - given, recovered := received - given }

/-- The recovery stage (R137 to R139). -/
def recoveryStage (v : Recovery) (a : Account) : Account :=
  { a with
    zones := zmk fun z => shareRecovery v (zget a.zones z)
    b := a.b - v.cost
    comp := a.comp - v.cost
    compUse := a.compUse + v.cost }

/-! ## ALLOT (R142, R143) -/

/-- A member of one step of one class. -/
structure Member where
  zone : Zone
  request : Int
  weight : Nat
  deriving DecidableEq, Repr

/-- The sum of a list of members' quantities. -/
def sumMembers (f : Member → Int) (ms : List Member) : Int := (ms.map f).sum

/-- A member's provisional grant when the pool is short (R142). -/
def provisional (pool : Int) (ms : List Member) (m : Member) : Int :=
  floorDiv (pool * m.weight * m.request) (sumMembers (fun k => k.weight * k.request) ms)

/-- ALLOT in at most `rounds` rounds: each member's zone with its final grant (R142, R143). -/
def allot : Nat → Int → List Member → List (Zone × Int)
  | 0, _, _ => []
  | n + 1, pool, ms =>
    if sumMembers (·.request) ms ≤ pool then ms.map fun m => (m.zone, m.request)
    else
      let exceeds := fun m => decide (m.request < provisional pool ms m)
      let fixed := ms.filter exceeds
      if fixed.isEmpty then ms.map fun m => (m.zone, provisional pool ms m)
      else if n = 0 then ms.map fun m => (m.zone, min (provisional pool ms m) m.request)
      else
        fixed.map (fun m => (m.zone, m.request))
          ++ allot n (pool - sumMembers (·.request) fixed) (ms.filter fun m => !exceeds m)

/-- ALLOT (R143: at most five rounds). -/
def allotGrants (pool : Int) (ms : List Member) : List (Zone × Int) := allot 5 pool ms

/-- The sum of a step's grants. -/
def grantTotal (gs : List (Zone × Int)) : Int := (gs.map (·.2)).sum

/-- Each granted zone's account changed by its grant. -/
def applyGrants (f : Int → ZoneAccount → ZoneAccount) (gs : List (Zone × Int)) (zs : Zones ZoneAccount) :
    Zones ZoneAccount :=
  gs.foldl (fun t g => zset t g.1 (f g.2 (zget t g.1))) zs

/-- The members of a step: the zones of a class with a path's flag and a residual above 0, each with its
request and weight. -/
def membersOf (a : Account) (cls : AllotClass) (path : Path) (residual : ZoneAccount → Int)
    (request : Int → Int) : List Member :=
  allZones.filterMap fun z =>
    let q := zget a.zones z
    if q.cls == some cls && pathFlag q.paths path && decide (0 < residual q) then
      some ⟨z, request (residual q), q.weight⟩
    else none

/-! ## Radiating (R140) -/

/-- Radiating for one class. -/
def radiateClass (a : Account) (cls : AllotClass) : Account :=
  let gs := allotGrants a.f (membersOf a cls .radiate (·.cool) id)
  { a with
    zones := applyGrants (fun g q => { q with cool := q.cool - g, radiated := q.radiated + g }) gs a.zones
    f := a.f - grantTotal gs
    radiated := a.radiated + grantTotal gs }

/-- The classes in the order of allotment. -/
def allotOrder : List AllotClass := [.p, .a, .b, .c]

/-! ## Class allotment (R141, R144) -/

/-- Step (a): chilling. -/
def chillClass (cop : Int) (available : Bool) (a : Account) (cls : AllotClass) : Account :=
  if available then
    let gs := allotGrants (min a.b a.comp) (membersOf a cls .chill (·.cool) fun c => ceilDiv (c * 10) cop)
    let give := fun g (q : ZoneAccount) =>
      let heat := min (floorDiv (g * cop) 10) q.cool
      { q with cool := q.cool - heat, chilled := q.chilled + heat }
    { a with
      zones := applyGrants give gs a.zones
      b := a.b - grantTotal gs
      comp := a.comp - grantTotal gs
      compUse := a.compUse + grantTotal gs }
  else a

/-- Step (b): ambient pumping. -/
def pumpClass (cop : Int) (available : Bool) (a : Account) (cls : AllotClass) : Account :=
  if available then
    let gs := allotGrants (min a.b a.comp) (membersOf a cls .pump (·.heat) fun h => ceilDiv (h * 10) cop)
    let give := fun g (q : ZoneAccount) =>
      let heat := min (floorDiv (g * cop) 10) q.heat
      { q with heat := q.heat - heat, pumped := q.pumped + heat }
    { a with
      zones := applyGrants give gs a.zones
      b := a.b - grantTotal gs
      comp := a.comp - grantTotal gs
      compUse := a.compUse + grantTotal gs }
  else a

/-- Step (c): resistive heating. -/
def heatClass (available : Bool) (a : Account) (cls : AllotClass) : Account :=
  if available then
    let gs := allotGrants (min a.b a.heater) (membersOf a cls .resistive (·.heat) id)
    { a with
      zones := applyGrants (fun g q => { q with heat := q.heat - g, resistive := q.resistive + g }) gs a.zones
      b := a.b - grantTotal gs
      heater := a.heater - grantTotal gs
      heatUse := a.heatUse + grantTotal gs }
  else a

/-! ## The pass as a whole -/

/-- Served heat (R145). -/
def servedHeat (q : ZoneAccount) : Int :=
  if 0 < q.d then q.recovered + q.pumped + q.resistive
  else if q.d < 0 then -(-q.recovered + q.radiated + q.chilled)
  else 0

/-- A zone's results (R149). -/
def zoneResult (m : Option Int) (dm : Demand) (q : ZoneAccount) : ZoneResult where
  meas := m
  error := dm.error
  integral := dm.integral
  demand := dm.d
  recovered := q.recovered
  radiated := q.radiated
  chilled := q.chilled
  pumped := q.pumped
  resistive := q.resistive
  served := servedHeat q
  unserved := servedHeat q != q.d

/-- Everything a pass that starts now computes, for the compositions it has just made (R126 to R146).
DESIGN CHOICE (notes/assumptions/63.md): the pool of a device that is not available is formed, and reported as remaining,
as R132 says, Pcomp or Pheat; the worked pass calls such a pool 0. Nothing is granted from it either way. -/
def computePass (s : State) (c : Cfg) : PassResult :=
  let p := c.plant
  let compOk := compressorAvailable s c
  let heatOk := heaterAvailable s c
  let recOk := recoveryAvailable s c
  let pumpOk := pumpingAvailable s c
  let radOk := radiatingAvailable s c
  let b := effectiveBudget s c
  let cop := pumpCop s c
  let f := radiatorHeat s c
  let demand := zmk fun z =>
    demandOf (zget c.zones z) (zget s.be.comp z) (zget s.be.prev z) (zget s.be.integral z)
      (zget s.mu.copy.ff z) (measurement s z)
  let opened : Account :=
    { zones := zmk fun z => openAccount (zget s.be.comp z) (zget s.au.paths z) (zget demand z).d
      b := b
      comp := p.pcomp
      heater := p.pheat
      f := f
      compUse := 0
      heatUse := 0
      radiated := 0 }
  let v := recoveryOf p recOk opened
  let recovered := recoveryStage v opened
  let radiated := allotOrder.foldl radiateClass recovered
  let spent := allotOrder.foldl
    (fun a cls => heatClass heatOk (pumpClass cop pumpOk (chillClass p.copc compOk a cls) cls) cls) radiated
  { zones := zmk fun z => zoneResult (measurement s z) (zget demand z) (zget spent.zones z)
    totals :=
      { bStart := b
        bEnd := spent.b
        h := v.h
        c := v.c
        r := v.r
        cost := v.cost
        f := f
        copEff := cop
        compUse := spent.compUse
        heatUse := spent.heatUse
        compLeft := spent.comp
        heatLeft := spent.heater
        compAvail := compOk
        heatAvail := heatOk
        recAvail := recOk
        pumpAvail := pumpOk
        radAvail := radOk
        radiated := spent.radiated }
    frostAdd :=
      match channelValue s p.evapOutlet with
      | none => 0
      | some t =>
        if allZones.any (fun z => decide (0 < (zget spent.zones z).pumped)) && decide (t < p.frostTemp) then
          p.frostTemp - t
        else 0
    chillP := allZones.any fun z => zonePath s z .chill && (zget s.be.comp z).cls == some .p }

/-- A pass starts (R126): every zone is composed, the zone states are formed, and the pass is in flight. -/
def startPass (s : State) : State :=
  match s.mc.config with
  | none => s
  | some c =>
    let composed := formZoneStates (s.onBe fun b => { b with comp := zmk (composeZone s) })
    composed.onBe fun b => { b with inFlight := some (computePass composed c), timer := some 0 }

/-- The sign and unserved facts a pass leaves for the next (R136). -/
def previousOf (r : ZoneResult) : Previous := ⟨r.demand.sign, r.unserved⟩

/-- The frost after a pass (R146). -/
def nextFrost (s : State) (add : Int) : Int :=
  match s.mc.config with
  | none => s.be.frost
  | some c => if 0 < add then min (s.be.frost + add) c.plant.frostLimit else s.be.frost

/-- The BE's own part of a pass completion (R126, R136, R146). -/
def takeResults (r : PassResult) (s : State) : State :=
  s.onBe fun b =>
    { b with
      integral := zmk fun z => (zget r.zones z).integral
      prev := zmk fun z => previousOf (zget r.zones z)
      results := r.zones
      totals := r.totals
      inFlight := none
      frost := nextFrost s r.frostAdd
      passCount := b.passCount + 1 }

/-- PARKING and QUIESCING entry at the BE: the pass in flight is abandoned, the integrals, previous-pass items
and composition records are cleared, and the period timer is restarted (R61, R124, R126, R135, R136). -/
def quietBalance (s : State) : State :=
  s.onBe fun b =>
    { b with
      timer := some 0
      integral := zmk fun _ => 0
      prev := zmk fun _ => ⟨0, false⟩
      comp := zmk fun _ => Composition.empty
      inFlight := none }

/-- An overrun (R128). -/
def countOverrun (s : State) : State := s.onBe fun b => { b with overruns := min (b.overruns + 1) 65535 }

/-- A frost at its limit asks for a defrost (R148). -/
def frostRequests (s : State) : Bool :=
  match s.mc.config with
  | none => false
  | some c => c.plant.autoDefrost && decide (s.be.frost = c.plant.frostLimit)

/-- The period of the committed configuration, in milliseconds. -/
def periodOfState (s : State) : Nat :=
  match s.mc.config with
  | none => 0
  | some c => c.period

/-- At least P/2 has elapsed since the last pass start (R125). -/
def halfPeriodPassed (s : State) : Bool :=
  match s.be.timer with
  | none => false
  | some t => decide (periodOfState s / 2 ≤ t)

end Sys2Proof.Machine
end

