-- ==== Sys2Proof/Machine/Actuation.lean ====
section
/-! DEFINITION. The Actuation Unit (chapter 9). -/

namespace Sys2Proof.Machine

/-! ## Path flags (R161) -/

/-- A path's number, in the order of the zone table (layouts 13.3). -/
def pathNumber : Path → Nat
  | .source => 0
  | .sink => 1
  | .radiate => 2
  | .chill => 3
  | .pump => 4
  | .resistive => 5

/-- No enabled actuator whose latch is latched has a zone-path pair in its essential-for set (R161). -/
def pathOpen (c : Cfg) (acts : Vector ActRec 12) (z : Zone) (p : Path) : Bool :=
  (vlist c.acts).all fun a =>
    !(a.2.enable && (acts.get a.1).latch.isSome && a.2.essential.testBit (6 * zoneNumber z + pathNumber p))

/-- A zone's six flags (R161). -/
def zonePaths (c : Cfg) (acts : Vector ActRec 12) (z : Zone) : Paths :=
  let e := (zget c.zones z).paths
  ⟨e.source && pathOpen c acts z .source, e.sink && pathOpen c acts z .sink,
    e.radiate && pathOpen c acts z .radiate, e.chill && pathOpen c acts z .chill,
    e.pump && pathOpen c acts z .pump, e.resistive && pathOpen c acts z .resistive⟩

/-- The AU recomputes every path flag (R161); with no configuration in force every flag is clear. -/
def recomputePaths (s : State) : State :=
  s.onAu fun a =>
    { a with
      paths := match s.mc.config with
        | none => AU.reset.paths
        | some c => zmk (zonePaths c a.acts) }

/-! ## Commands (R151 to R155) -/

/-- A load: floor(1000 × x / capacity), 0 for a capacity of 0 (R151). -/
def loadOf (x capacity : Int) : Int := if capacity = 0 then 0 else floorDiv (1000 * x) capacity

/-- The heat delivered to a zone: its served heat when positive (R151). -/
def delivered (served : Int) : Int := max served 0

/-- The heat removed from a zone: the magnitude of its served heat when negative (R151). -/
def removed (served : Int) : Int := max (-served) 0

/-- The load a zone gives a ZONE_ANY source (R151). -/
def anyLoad (c : ZoneCfg) (served : Int) : Int :=
  if 0 < served then loadOf served c.hmax else if served < 0 then loadOf (-served) c.cmax else 0

/-- The greatest of some loads, each at least 0. -/
def greatestLoad (ls : List Int) : Int := ls.foldl max 0

/-- The load of an actuator's source after a pass (R151). -/
def sourceLoad (c : Cfg) (r : PassResult) (a : ActCfg) : Int :=
  let served := fun z => (zget r.zones z).served
  match a.source with
  | some .compressorLoad => loadOf r.totals.compUse c.plant.pcomp
  | some .heaterLoad => loadOf r.totals.heatUse c.plant.pheat
  | some .radiatorLoad => loadOf r.totals.radiated c.plant.fmax
  | some .zoneHeat => greatestLoad (a.zones.map fun z => loadOf (delivered (served z)) (zget c.zones z).hmax)
  | some .zoneCool => greatestLoad (a.zones.map fun z => loadOf (removed (served z)) (zget c.zones z).cmax)
  | some .zoneAny => greatestLoad (a.zones.map fun z => anyLoad (zget c.zones z) (served z))
  | none => 0

/-- The defrost override is in force in a run state (R153). -/
def overrides : RunState → Bool
  | .prepare | .melt | .drip => true
  | .idle | .restore | .suspended => false

/-- The aim case of an actuator and its aim before the clamp (R152). -/
def aimOf (run : RunState) (load : Int) (a : ActCfg) (r : ActRec) : AimCase × Int :=
  if r.latch.isSome then (.rest, a.rest)
  else
    match a.defrost with
    | some d => if overrides run then (.defrost, d) else (.load, a.base + floorDiv (a.gain * load) 1000)
    | none => (.load, a.base + floorDiv (a.gain * load) 1000)

/-- The low-level cap (R154). -/
def capAim (coolantLow : Bool) (a : ActCfg) (aim : Int) : Int :=
  if coolantLow && a.pump then max a.min (min aim a.cap) else aim

/-- One slew step from a held command toward an aim (R155); the aim itself where none is held. -/
def slewToward (slew aim : Int) (held : Option Int) : Int :=
  match held with
  | none => aim
  | some h => if h + slew < aim then h + slew else if aim < h - slew then h - slew else aim

/-- The command and aim case of an enabled actuator at a pass completion (R152 to R155). -/
def commandOf (coolantLow : Bool) (run : RunState) (load : Int) (a : ActCfg) (r : ActRec) : ActRec :=
  let (case, aim) := aimOf run load a r
  { r with
    command := some (slewToward a.slew (capAim coolantLow a (clamp aim a.min a.max)) r.command)
    aim := case }

/-- Every enabled actuator's record changed by a function of its entry. -/
def onEnabledActs (f : ActCfg → ActRec → ActRec) (s : State) : State :=
  match s.mc.config with
  | none => s
  | some c =>
    s.onAu fun u =>
      { u with
        acts := vmap u.acts fun i r =>
          let a := c.acts.get i
          if a.enable then f a r else r }

/-- The command computation of a pass completion (R151 to R155). -/
def computeCommands (r : PassResult) (s : State) : State :=
  match s.mc.config with
  | none => s
  | some c =>
    onEnabledActs (fun a q => commandOf (accepted s .clvl) s.dc.run.state (sourceLoad c r a) a q) s

/-- A period expiry in PARKING: each command moves one slew step toward its rest value (R25, R155). -/
def stepCommandsToRest (s : State) : State :=
  onEnabledActs (fun a r => { r with command := some (slewToward a.slew a.rest r.command) }) s

/-- Every command is set to its rest value at once (R26, R155). -/
def setCommandsToRest (s : State) : State := onEnabledActs (fun a r => { r with command := some a.rest }) s

/-- Every aim case becomes REST (R162). -/
def aimAtRest (s : State) : State :=
  s.onAu fun u => { u with acts := vmap u.acts fun _ r => { r with aim := .rest } }

/-! ## Feedback and faults (R156 to R160) -/

/-- The fault condition of a fault byte (R157). -/
def faultByteKind (b : Nat) : Option FaultKind :=
  if b = 0 then none
  else if b.testBit 0 then some .stall
  else if b.testBit 1 then some .overtemp
  else some .nodeFault

/-- The tracking count after a good reply (R158). -/
def nextTracking (tolerance feedback : Int) (carried : Option Int) (count : Nat) : Nat :=
  match carried with
  | none => count
  | some v => if tolerance < |feedback - v| then min (count + 1) 3 else 0

/-- The first fault condition that holds, in the order of R159. -/
def firstFault (node : NodeState) (byte : Option FaultKind) (tracking : Bool) : Option FaultKind :=
  if node = .failed then some .nodeFailed
  else
    match byte with
    | some k => some k
    | none => if tracking then some .tracking else none

/-- An actuator record after a DRIVE exchange of its node (R156): the four feedback values and the fault byte
when the reply was good, and the node state in every case. -/
def judgeActuator (reply : Option (List Nat × Nat)) (node : NodeState) (a : ActCfg) (r : ActRec) : ActRec :=
  match reply with
  | none =>
    let latch := match r.latch with
      | some k => some k
      | none => firstFault node none false
    { r with node := node, latch := latch }
  | some (values, byte) =>
    let feedback : Int := values.getD a.output 0
    let tracking := nextTracking a.tolerance feedback r.carried r.tracking
    -- TRACKING holds when the count stands at 3 and this reply is out of tolerance; within tolerance it is 0
    let outOfTrack := tracking == 3 && r.carried.isSome
    let latch := match r.latch with
      | some k => some k
      | none => firstFault node (faultByteKind byte) outOfTrack
    { r with node := node, feedback := some feedback, tracking := tracking, latch := latch }

/-- Some actuator's latch is entered between two tables. -/
def latchEntered (before after : Vector ActRec 12) : Bool :=
  (vlist before).any fun a => a.2.latch.isNone && (after.get a.1).latch.isSome

/-- The AU takes a DRIVE exchange's results for a node (R156, R159). -/
def takeDrive (address : Nat) (reply : Option (List Nat × Nat)) (node : NodeState) (s : State) : State :=
  let t := onEnabledActs (fun a r => if a.node = address then judgeActuator reply node a r else r) s
  if latchEntered s.au.acts t.au.acts then recomputePaths (raise .fault t) else t

/-- CLEAR_FAULTS at the AU (R160). -/
def clearLatches (s : State) : State :=
  recomputePaths (s.onAu fun u => { u with acts := vmap u.acts fun _ r => { r with latch := none } })

/-- The node states are handed to the AU as UNKNOWN (R156). -/
def handUnknownToActs (s : State) : State :=
  s.onAu fun u => { u with acts := vmap u.acts fun _ r => { r with node := .unknown } }

/-- A successful CONFIGURE at the AU (R155, R162). -/
def configureActs (c : Cfg) (s : State) : State :=
  recomputePaths
    (s.onAu fun u =>
      { u with
        acts := vmap u.acts fun i r =>
          let a := c.acts.get i
          { command := if a.enable then some a.rest else none
            latch := r.latch
            tracking := 0
            feedback := none
            node := .unknown
            aim := .rest
            carried := none } })

end Sys2Proof.Machine
end

