-- ==== Sys2Proof/Machine/Link.lean ====
section
/-! DEFINITION. The Field Link Controller's messages and node records (chapter 6). -/

namespace Sys2Proof.Machine

/-! ## The exchange list (R101) -/

/-- One exchange of the list: a node table entry, and whether it is the DRIVE or the SAMPLE. -/
structure Exchange where
  entry : Fin 30
  drive : Bool
  deriving DecidableEq, Repr

/-- The exchanges an enabled entry's kind gives it (6.2). -/
def exchangesOf (i : Fin 30) : Option NodeKind → List Exchange
  | some .sensor => [⟨i, false⟩]
  | some .actuator => [⟨i, true⟩]
  | some .mixed => [⟨i, false⟩, ⟨i, true⟩]
  | none => []

/-- The exchange list of a configuration (R101). -/
def exchangeListOf (c : Cfg) : List Exchange :=
  (vlist c.nodes).flatMap fun n => if n.2.enable then exchangesOf n.1 n.2.kind else []

/-- The exchange list of the committed configuration; empty while there is none. -/
def exchangeList (s : State) : List Exchange :=
  match s.mc.config with
  | none => []
  | some c => exchangeListOf c

/-- The exchange the cursor names. -/
def currentExchange (s : State) : Option Exchange := (exchangeList s)[s.flc.cursor]?

/-- The address of an entry. -/
def entryAddress (s : State) (i : Fin 30) : Nat :=
  match s.mc.config with
  | none => 0
  | some c => (c.nodes.get i).address

/-! ## Requests (R90, R91, R93, R94) -/

/-- The function code of an exchange (layouts 13.6). -/
def functionCode (drive : Bool) : Nat := if drive then 0x42 else 0x21

/-- One more than the highest output index that an enabled actuator names on a node (R94). -/
def outputCount (c : Cfg) (address : Nat) : Nat :=
  (vlist c.acts).foldl (fun n a => if a.2.enable && a.2.node == address then max n (a.2.output + 1) else n) 0

/-- The value a DRIVE request sends for an output index: the command held by the enabled actuator that names it,
or 0 (R94). -/
def outputValue (s : State) (c : Cfg) (address k : Nat) : Nat :=
  match (vlist c.acts).find? fun a => a.2.enable && a.2.node == address && a.2.output == k with
  | some a => (((s.au.acts.get a.1).command).getD 0).toNat
  | none => 0

/-- A number of 16 bits, least significant byte first. -/
def bytesOf16 (n : Nat) : List Nat := [n % 256, n / 256 % 256]

/-- The payload of a request (R93, R94). -/
def requestPayload (s : State) (x : Exchange) : List Nat :=
  match s.mc.config with
  | none => []
  | some c =>
    if x.drive then
      let address := (c.nodes.get x.entry).address
      (List.range (outputCount c address)).flatMap fun k => bytesOf16 (outputValue s c address k)
    else []

/-- The check character that makes an 8-bit sum 0 (R91). -/
def checkByte (bytes : List Nat) : Nat := (256 - bytes.sum % 256) % 256

/-- The characters of a request: address, function, length, payload, check (R91). -/
def requestBytes (s : State) (x : Exchange) : List Nat :=
  let payload := requestPayload s x
  let summed := [functionCode x.drive, payload.length] ++ payload
  entryAddress s x.entry :: summed ++ [checkByte summed]

/-- The 11 bits of a character, the start bit as bit 0 (R90). -/
def character (mark : Bool) (data : Nat) : BitVec 11 :=
  BitVec.ofNat 11 (2 * (data % 256) + 512 * bit mark + 1024)

/-- A request's characters: the mark is 1 on the address character alone (R90). -/
def requestChars (s : State) (x : Exchange) : List (BitVec 11) :=
  match requestBytes s x with
  | [] => []
  | a :: rest => character true a :: rest.map (character false)

/-! ## The levels of the pins (R90, R106, R109) -/

/-- LDIR is high exactly while the part sends: in a request, a break or a preamble. -/
def ldirHigh : LinkWork → Bool
  | .sending _ | .brk | .preamble => true
  | .off | .waiting | .due | .window | .char _ | .gap _ | .failed _ _ => false

/-- The level of LTX in bit time `k` of the line's present work: 0 in a break, the characters' bits in turn in a
request, and 1 at every other time. -/
def ltxAt (w : LinkWork) (k : Nat) : Bool :=
  match w with
  | .brk => false
  | .sending chars =>
    match chars[k / 11]? with
    | some c => c.getLsbD (k % 11)
    | none => true
  | .off | .preamble | .waiting | .due | .window | .char _ | .gap _ | .failed _ _ => true

/-! ## Sending a request -/

/-- The commands a DRIVE request carries are recorded at its start bit (R94). -/
def recordCarried (s : State) (x : Exchange) : State :=
  if x.drive then
    let address := entryAddress s x.entry
    onEnabledActs (fun a r => if a.node = address then { r with carried := r.command } else r) s
  else s

/-- The link work replaced. -/
def setWork (w : LinkWork) (s : State) : State := s.onFlc fun f => { f with work := w }

/-- What follows the link work in flight replaced. -/
def setAfter (a : AfterWork) (s : State) : State := s.onFlc fun f => { f with after := a }

/-- The start bit of a due request: it is formed whole from the values that stand (R91). -/
def requestStarts (s : State) : State :=
  match s.flc.work, currentExchange s with
  | .due, some x => setWork (.sending (requestChars s x)) (recordCarried s x)
  | _, _ => s

/-- The end of a request's last stop bit (R95). -/
def requestEnds (s : State) : State :=
  match s.flc.work with
  | .sending _ => setWork .window s
  | _ => s

/-- A start bit on LRX while the receiver is open (R95, R97). -/
def startBitBegins (s : State) : State :=
  match s.flc.work with
  | .window => setWork (.char []) s
  | .gap rx => setWork (.char rx) s
  | .failed k _ => setWork (.failed k 0) s
  | _ => s

/-! ## Judging a reply (R92, R95, R96) -/

/-- A length the reply of a function may have (R93, R94). -/
def replyLengthOk (drive : Bool) (n : Nat) : Bool :=
  decide (n ≤ 12) && (if drive then n == 9 else [0, 2, 4, 6, 8].contains n)

/-- What a judged reply character leads to. -/
inductive Verdict where
  | more
  | error (k : MissKind)
  | good
  deriving DecidableEq, Repr

/-- The judgment of a reply character after the characters `rx`, oldest first (R96). -/
def judgeCharacter (x : Exchange) (address : Nat) (rx : List Byte) (data : Byte) (mark stop : Bool) : Verdict :=
  if mark != rx.isEmpty then .error .mark
  else if !stop then .error .frame
  else
    match rx with
    | [] => if data.toNat = address then .more else .error .address
    | [_] => .more
    | [_, _] => if replyLengthOk x.drive data.toNat then .more else .error .length
    | _ :: status :: length :: payload =>
      if payload.length < length.toNat then .more
      else
        let sum := status.toNat + length.toNat + (payload.map BitVec.toNat).sum + data.toNat
        if sum % 256 ≠ 0 then .error .check
        else if status ≠ 0 then .error .status
        else .good

/-- The bit times of 1 at the end of a character (R90). -/
def trailingOnes (data : Byte) (mark stop : Bool) : Nat :=
  if !stop then 0
  else if !mark then 1
  else 2 + ((List.range 8).reverse.takeWhile fun i => data.getLsbD i).length

/-- The payload of a whole good reply. -/
def replyPayload (rx : List Byte) : List Byte := rx.drop 3

/-- The 16-bit numbers of a payload (R91). -/
def pairs : List Byte → List Nat
  | lo :: hi :: rest => littleEndian16 lo hi :: pairs rest
  | _ => []

/-- The four values a good SAMPLE reply hands on; an index it did not carry is 0x8000 (R93). -/
def sampleValues (payload : List Byte) : List Nat := ((pairs payload) ++ List.replicate 4 0x8000).take 4

/-- The four feedback values and the fault byte of a good DRIVE reply (R94). -/
def driveValues (payload : List Byte) : List Nat × Nat :=
  ((pairs (payload.take 8)).take 4, ((payload.drop 8).headD 0).toNat)

/-! ## Node records (R98 to R100) -/

/-- miss_limit of the committed configuration. -/
def missLimit (s : State) : Nat :=
  match s.mc.config with
  | none => 0
  | some c => c.missLimit

/-- A node record after a good reply (R99). -/
def nodeGood (r : NodeRec) : NodeRec :=
  if r.state = .failed ∧ r.good = 0 then { r with good := 1 }
  else { r with state := .online, misses := 0, good := 0 }

/-- A node record after a miss (R99). -/
def nodeMiss (limit : Nat) (k : MissKind) (r : NodeRec) : NodeRec :=
  let misses := min (r.misses + 1) (limit + 1)
  { state := if misses = limit + 1 then .failed else .missing, misses := misses, good := 0, lastError := some k }

/-- An exchange's result: the payload of a good reply, or the kind of the miss. -/
abbrev ExchangeResult := Except MissKind (List Byte)

/-- A node record after an exchange (R99). -/
def nodeAfter (limit : Nat) (res : ExchangeResult) (r : NodeRec) : NodeRec :=
  match res with
  | .ok _ => nodeGood r
  | .error k => nodeMiss limit k r

/-- The payload of a good result. -/
def goodPayload : ExchangeResult → Option (List Byte)
  | .ok p => some p
  | .error _ => none

/-- The record of an exchange's node is updated; entry to FAILED raises FAULT; a good reply is kept in the
round's record (R99, R101). -/
def updateNode (x : Exchange) (res : ExchangeResult) (s : State) : State :=
  let old := s.flc.nodes.get x.entry
  let new := nodeAfter (missLimit s) res old
  raiseIf (new.state == .failed && old.state != .failed) .fault
    (s.onFlc fun f =>
      { f with
        nodes := vset f.nodes x.entry new
        round := if (goodPayload res).isSome then vset f.round x.entry true else f.round })

/-- The measurements are recomputed and the evaporator test is made, at an event at which the MU changes
channels (R114, R180). -/
def afterChannelEvent (s : State) : State := meltTest (recomputeMeasurements s)

/-- An exchange's results are handed on with the node state after the update (R100). -/
def handResults (x : Exchange) (res : ExchangeResult) (s : State) : State :=
  let node := (s.flc.nodes.get x.entry).state
  let address := entryAddress s x.entry
  if x.drive then takeDrive address ((goodPayload res).map driveValues) node s
  else afterChannelEvent (takeSample address ((goodPayload res).map sampleValues) node s)

/-- Every node record becomes UNKNOWN, with both counts 0 and last error NONE (R98). -/
def resetNodes (s : State) : State :=
  s.onFlc fun f => { f with nodes := Vector.replicate 30 NodeRec.reset }

/-- A LINK_RESET's record reset, handed to the MU and the AU (R100, R108). -/
def resetNodesHanded (s : State) : State :=
  afterChannelEvent (handUnknownToActs (handUnknownToChannels (resetNodes s)))

end Sys2Proof.Machine
end

