-- ==== Sys2Proof/Machine/Report.lean ====
section
/-! DEFINITION. The part-written words: slot status and STAT (layouts 13.2, 13.5), and the report area
(13.7). -/

namespace Sys2Proof.Machine

/-! ## Codes -/

/-- Device state, "in the order of the mode table". -/
def deviceStateCode : DeviceState → Nat
  | .unconfigured => 0
  | .parked => 1
  | .starting => 2
  | .active => 3
  | .parking => 4
  | .quiescing => 5

/-- The offset of a lock state among the modes of one device state. -/
def lockOffset : LockState → Nat
  | .off => 0
  | .locked => 1
  | .lockLost => 2

/-- The STAT mode field (layouts 13.2). UNCONFIGURED and PARKED stand with lock OFF alone. -/
def modeCode (d : DeviceState) (l : LockState) : Nat :=
  match d with
  | .unconfigured => 0
  | .parked => 1
  | .starting => 2 + lockOffset l
  | .active => 5 + lockOffset l
  | .parking => 8 + lockOffset l
  | .quiescing => 11 + lockOffset l

/-- The CTRL action codes (layouts 13.2). -/
def actionCode : CtrlAction → Nat
  | .modeActive => 1
  | .modeParked => 2
  | .configure => 3
  | .quiesce => 4
  | .portReset => 5
  | .linkReset => 6
  | .clearFaults => 7
  | .lockLimits => 8
  | .timeSet => 9
  | .timeNudge => 10

def lastActionCode : LastAction → Nat
  | .none => 0
  | .action a => actionCode a
  | .unknown => 15

def ctrlResultCode : CtrlResult → Nat
  | .none => 0
  | .inProgress => 1
  | .done => 2
  | .wrongState => 3
  | .busy => 4
  | .unknownAction => 5
  | .badTable => 6
  | .dupAddress => 7
  | .badRef => 8
  | .lockedLimits => 9
  | .badTime => 10

def accessKindCode : AccessKind → Nat
  | .none => 0
  | .unmapped => 1
  | .writeOwned => 2
  | .writeHeld => 3
  | .writeFrozen => 4
  | .readInWindow => 5
  | .badCommand => 6

def slotStateCode : SlotState → Nat
  | .empty => 0
  | .pending => 1
  | .waiting => 2
  | .active => 3
  | .ended => 4

def reasonCode : Option Reason → Nat
  | none => 0
  | some .stackFull => 1
  | some .parked => 2

def outcomeCode : Option Outcome → Nat
  | none => 0
  | some .completed => 1
  | some .expired => 2
  | some .reached => 3
  | some .late => 4
  | some .retracted => 5
  | some .aborted => 6
  | some .refused => 7
  | some .quiesced => 8
  | some .noWake => 9

def slotResultCode : SlotResult → Nat
  | .none => 0
  | .done => 1
  | .refusedState => 2
  | .refusedMode => 3
  | .refusedKind => 4
  | .unknownAction => 5
  | .badKind => 6
  | .badZone => 7
  | .badClass => 8
  | .badCombine => 9
  | .badStart => 10
  | .badEnd => 11
  | .badStamp => 12
  | .unsetClock => 13
  | .past => 14
  | .busy => 15
  | .notActive => 16

def metCode : Met → Nat
  | .notYet => 0
  | .met => 1
  | .notMet => 2

def runOutcomeCode : Option RunOutcome → Nat
  | none => 0
  | some .completed => 1
  | some .expired => 2
  | some .aborted => 3

def classCode : Class → Nat
  | .a => 0
  | .b => 1
  | .c => 2

def allotClassCode : Option AllotClass → Nat
  | none => 0
  | some .p => 1
  | some .a => 2
  | some .b => 3
  | some .c => 4

def combineCode : Combine → Nat
  | .replace => 0
  | .blend => 1
  | .floor => 2
  | .ceiling => 3

def linkStateCode : LinkWork → Nat
  | .off => 0
  | .brk => 1
  | .preamble => 2
  | .due | .sending _ | .window | .char _ | .gap _ | .failed _ _ => 3
  | .waiting => 4

def zoneStateCode : ZoneState → Nat
  | .idle => 0
  | .normal => 1
  | .protect => 2
  | .hard => 3
  | .degraded => 4

def channelStateCode : ChannelState → Nat
  | .none => 0
  | .fresh => 1
  | .held => 2
  | .failed => 3

def nodeStateCode : NodeState → Nat
  | .unknown => 0
  | .online => 1
  | .missing => 2
  | .failed => 3

def missCode : Option MissKind → Nat
  | none => 0
  | some .noReply => 1
  | some .frame => 2
  | some .mark => 3
  | some .address => 4
  | some .length => 5
  | some .check => 6
  | some .gap => 7
  | some .status => 8

def aimCode : AimCase → Nat
  | .load => 0
  | .defrost => 1
  | .rest => 2

def faultCode : Option FaultKind → Nat
  | none => 0
  | some .nodeFailed => 1
  | some .stall => 2
  | some .overtemp => 3
  | some .nodeFault => 4
  | some .tracking => 5

def runStateCode : RunState → Nat
  | .idle => 0
  | .prepare => 1
  | .melt => 2
  | .drip => 3
  | .restore => 4
  | .suspended => 5

def rememberedCode : Option RememberedPhase → Nat
  | none => 0
  | some .melt => 1
  | some .drip => 2

def abortCode : Option AbortCause → Nat
  | none => 0
  | some .retract => 1
  | some .parking => 2
  | some .hvok => 3
  | some .suspendTime => 4
  | some .quiesce => 5

def originCode : Option Origin → Nat
  | none => 31
  | some .auto => 30
  | some (.slot n) => n.val

/-! ## Absent values (R189) -/

/-- A temperature in a 16-bit field: 0x8000 when absent. -/
def tempField : Option Int → Nat
  | none => 0x8000
  | some v => twos 16 v

/-- An output in ‰: 0xFFFF when absent. -/
def outputField : Option Int → Nat
  | none => 0xFFFF
  | some v => twos 16 v

/-- A slot number: 31 when absent. -/
def slotField : Option Slot → Nat
  | none => 31
  | some i => i.val

/-- A signed 32-bit quantity: 0x80000000 when absent. -/
def quantityWord : Option Int → Word
  | none => 0x80000000
  | some v => intWord v

/-- Four bytes, the first in the least significant byte. -/
def bytesWord (absent : Nat) (bs : List Nat) : Word :=
  packed [place 0 8 (bs.getD 0 absent), place 8 8 (bs.getD 1 absent), place 16 8 (bs.getD 2 absent),
    place 24 8 (bs.getD 3 absent)]

/-! ## Registers and slot status -/

/-- STAT (R15, layouts 13.2). -/
def statWord (s : State) : Word :=
  packed [place 0 4 (modeCode s.mc.state s.be.lock), place 4 1 (bit s.cc.set),
    place 5 4 (lastActionCode s.pi.lastAction), place 9 4 (ctrlResultCode s.pi.lastResult),
    place 13 3 (accessKindCode s.pi.accessKind), place 16 16 s.pi.accessAddr.toNat]

/-- A slot's status words 12 to 15, numbered 0 to 3 (R34, layouts 13.5). -/
def statusWord (r : SlotRec) (k : Nat) : Word :=
  match k with
  | 0 =>
    packed [place 0 3 (slotStateCode r.state), place 4 2 (reasonCode r.reason), place 8 4 (outcomeCode r.outcome),
      place 16 5 (slotResultCode r.result), place 24 1 (bit r.placed), place 26 2 (metCode r.met),
      place 28 2 r.suspendCount]
  | 1 => packed [place 0 26 (r.due.getD 0), place 31 1 (bit r.due.isSome)]
  | 2 => packed [place 0 16 r.runCount, place 16 2 (runOutcomeCode r.lastRun)]
  | _ => packed [place 0 16 (r.firedOn.getD 0), place 31 1 (bit r.firedOn.isSome)]

/-! ## The report area (R12, R48, R73, R149, layouts 13.7) -/

/-- hold_limit of the committed configuration. -/
def holdLimit (s : State) : Nat :=
  match s.mc.config with
  | none => 0
  | some c => c.holdLimit

/-- The general words 0x601 to 0x605 (numbered 1 to 5). -/
def reportGeneral (s : State) (k : Nat) : Word :=
  match k with
  | 1 =>
    packed [place 0 3 (deviceStateCode s.mc.state), place 8 3 (linkStateCode s.flc.work),
      place 16 1 (bit (accepted s .hvok)), place 17 1 (bit (accepted s .clvl)),
      place 18 1 (bit (accepted s .chgp))]
  | 2 => s.be.passCount
  | 3 => packed [place 0 16 s.be.overruns, place 16 16 s.flc.recoveries]
  | 4 => intWord s.mu.copy.budget
  | 5 => packed [place 0 1 (bit s.mu.copy.current), place 16 16 (s.mu.commitAge.getD 0)]
  | _ => 0

/-- The pass-level words 0x610 to 0x61E (numbered 0 to 14; R149). -/
def reportPass (s : State) (k : Nat) : Word :=
  let t := s.be.totals
  match k with
  | 0 => intWord t.bStart
  | 1 => intWord t.bEnd
  | 2 => intWord t.h
  | 3 => intWord t.c
  | 4 => intWord t.r
  | 5 => intWord t.cost
  | 6 => intWord t.f
  | 7 => intWord t.copEff
  | 8 => intWord t.compUse
  | 9 => intWord t.heatUse
  | 10 => intWord t.compLeft
  | 11 => intWord t.heatLeft
  | 12 =>
    packed [place 0 1 (bit t.compAvail), place 1 1 (bit t.heatAvail), place 2 1 (bit t.recAvail),
      place 3 1 (bit t.pumpAvail), place 4 1 (bit t.radAvail)]
  | 13 => intWord s.be.frost
  | 14 => intWord t.radiated
  | _ => 0

/-- Six path flags in the order of the zone table.
DEDUCED (notes/assumptions/61.md): the first path of the order, recovery source, has the lowest bit. -/
def pathsField (p : Paths) : Nat :=
  bit p.source + 2 * bit p.sink + 4 * bit p.radiate + 8 * bit p.chill + 16 * bit p.pump + 32 * bit p.resistive

/-- The byte of a composition entry: its slot and its mark. -/
def entryByte (e : Slot × Bool) : Nat := e.1.val + 128 * bit e.2

/-- A word of a zone record, numbered 0 to 31 (layouts 13.7). -/
def reportZone (s : State) (z : Zone) (k : Nat) : Word :=
  let comp := zget s.be.comp z
  let p := zget s.pu.zones z
  let r := zget s.be.results z
  let waiting := (waitOf s z).map (·.val)
  match k with
  | 0 => packed [place 0 16 (tempField comp.lo), place 16 16 (tempField comp.hi)]
  | 1 =>
    packed [place 0 3 (allotClassCode comp.cls), place 4 4 comp.weight, place 8 5 (slotField comp.top),
      place 16 3 (zoneStateCode p.state), place 20 1 (bit p.high), place 21 1 (bit p.low), place 22 1 (bit p.hard),
      place 23 1 (bit (zget s.mu.degraded z)), place 24 1 (bit p.locked.isSome), place 25 1 (bit r.unserved),
      place 26 6 (pathsField (zget s.au.paths z))]
  | 2 => bytesWord 31 (comp.entries.map entryByte)
  | 3 => bytesWord 0xFF ((stackOf s z).map (·.val))
  | 4 => bytesWord 0xFF waiting
  | 5 => bytesWord 0xFF (waiting.drop 4)
  | 6 => bytesWord 0xFF (waiting.drop 8)
  | 7 => bytesWord 0xFF (waiting.drop 12)
  | 8 => bytesWord 0xFF (waiting.drop 16)
  | 9 => bytesWord 0xFF (waiting.drop 20)
  | 10 => packed [place 0 16 (tempField (measurement s z)), place 16 16 (tempField (zget s.mu.lastValid z))]
  | 11 => quantityWord r.error
  | 12 => intWord r.integral
  | 13 => intWord r.demand
  | 14 => intWord r.recovered
  | 15 => intWord r.radiated
  | 16 => intWord r.chilled
  | 17 => intWord r.pumped
  | 18 => intWord r.resistive
  | 19 => intWord r.served
  | 20 => packed [place 0 16 (twos 16 p.power.computed), place 16 16 (twos 16 p.power.published)]
  | 21 =>
    match z with
    | .packA => packed [place 0 16 (twos 16 s.pu.chargeA.computed), place 16 16 (twos 16 s.pu.chargeA.published)]
    | .packB => packed [place 0 16 (twos 16 s.pu.chargeB.computed), place 16 16 (twos 16 s.pu.chargeB.published)]
    | .drive | .cab | .berth => 0
  | _ => 0

/-- A slot's values in use, word 0 or 1; 0 for a slot without a working record.
DESIGN CHOICE (notes/assumptions/60.md): the alpha field shows 0 where the directive has no alpha. -/
def reportSlot (r : SlotRec) (k : Nat) : Word :=
  match r.work with
  | none => 0
  | some w =>
    if k = 0 then packed [place 0 16 (twos 16 w.target), place 16 16 (twos 16 w.halfBand)]
    else
      packed [place 0 3 (combineCode w.combine), place 4 2 (classCode w.cls), place 8 4 w.weight,
        place 12 4 (w.alpha.getD 0)]

/-- A channel's word. -/
def reportChannel (s : State) (r : ChannelRec) : Word :=
  packed [place 0 16 (tempField r.value), place 16 8 r.age,
    place 24 3 (channelStateCode (channelState (holdLimit s) r)), place 28 1 (bit r.rangeFault)]

/-- A node entry's word. -/
def reportNode (r : NodeRec) : Word :=
  packed [place 0 2 (nodeStateCode r.state), place 4 4 r.misses, place 8 1 r.good, place 12 4 (missCode r.lastError)]

/-- An actuator's word 0 or 1. -/
def reportAct (r : ActRec) (k : Nat) : Word :=
  if k = 0 then packed [place 0 16 (outputField r.command), place 16 16 (outputField r.feedback)]
  else
    packed [place 0 2 (aimCode r.aim), place 4 1 (bit r.latch.isSome), place 8 3 (faultCode r.latch),
      place 12 2 r.tracking]

/-- The defrost words 0x750 to 0x755 (numbered 0 to 5).
DESIGN CHOICE (notes/assumptions/37.md): with no last-run record, word 0x754 holds origin 31, the absent slot number,
and otherwise 0, and word 0x755, the last run's suspended time, is 0. -/
def reportDefrost (d : DC) (k : Nat) : Word :=
  let r := d.run
  match k with
  | 0 =>
    packed [place 0 3 (runStateCode r.state), place 4 2 (rememberedCode r.remembered),
      place 6 1 (bit r.suspendable), place 7 1 (bit r.pendingSuspend), place 8 3 (abortCode r.aborted),
      place 12 2 r.suspendCount, place 16 6 r.resumeCount, place 24 5 (originCode r.origin)]
  | 1 => natWord r.phaseTimer
  | 2 => natWord r.meltTime
  | 3 => natWord r.suspendedTime
  | 4 =>
    match d.last with
    | none => natWord 31
    | some l =>
      packed [place 0 5 (originCode l.origin), place 8 2 (if l.cause.isNone then 1 else 2),
        place 12 3 (abortCode l.cause), place 16 2 l.suspendCount, place 31 1 1]
  | 5 =>
    match d.last with
    | none => 0
    | some l => natWord l.suspendedTime
  | _ => 0

/-- A word of the report area by its offset from 0x600, 1 to 511. -/
def reportWord (s : State) (k : Nat) : Word :=
  if k < 0x06 then reportGeneral s k
  else if k < 0x0B then
    match zoneOfNumber (k - 0x06) with
    | some z => intWord (zget s.mu.copy.ff z)
    | none => 0
  else if k < 0x10 then 0
  else if k < 0x20 then reportPass s (k - 0x10)
  else if k < 0xC0 then
    match zoneOfNumber ((k - 0x20) / 32) with
    | some z => reportZone s z ((k - 0x20) % 32)
    | none => 0
  else if k < 0xF0 then
    if h : (k - 0xC0) / 2 < 24 then reportSlot (slotRec s ⟨(k - 0xC0) / 2, h⟩) ((k - 0xC0) % 2) else 0
  else if k < 0x100 then 0
  else if k < 0x110 then
    if h : k - 0x100 < 16 then reportChannel s (s.mu.channels.get ⟨k - 0x100, h⟩) else 0
  else if k < 0x12E then
    if h : k - 0x110 < 30 then reportNode (s.flc.nodes.get ⟨k - 0x110, h⟩) else 0
  else if k < 0x130 then 0
  else if k < 0x148 then
    if h : (k - 0x130) / 2 < 12 then reportAct (s.au.acts.get ⟨(k - 0x130) / 2, h⟩) ((k - 0x130) % 2) else 0
  else if k < 0x150 then 0
  else if k < 0x156 then reportDefrost s.dc (k - 0x150)
  else 0

/-- The words 0x601 to 0x7FF as the blocks stand. -/
def reportWords (s : State) : List Word := (List.range 511).map fun k => reportWord s (k + 1)

/-- A publication begins (R12): the window opens and the values are taken. -/
def startPublication (s : State) : State := s.onPi fun p => { p with publication := some (reportWords s) }

/-- A publication completes (R12): the area is written, the publish count grows, the window closes and REPORT is
raised. -/
def completePublication (s : State) : State :=
  match s.pi.publication with
  | none => s
  | some words =>
    raise .report
      (s.onPi fun p => { p with publication := none, report := (p.report.headD 0 + 1) :: words })

/-- A balance pass completion at the PI: the divisor count (R11). -/
def countTowardReport (s : State) : State :=
  match s.mc.config with
  | none => s
  | some c =>
    if c.divisor ≤ s.pi.divisorCount + 1 then startPublication (s.onPi fun p => { p with divisorCount := 0 })
    else s.onPi fun p => { p with divisorCount := p.divisorCount + 1 }

/-- The publication of ACTIVE entry (R11, R22). -/
def publishFirst (s : State) : State := startPublication (s.onPi fun p => { p with divisorCount := 0 })

end Sys2Proof.Machine
end

