-- ==== Sys2Proof/Machine/Modes.lean ====
section
/-! DEFINITION. The Mode Controller's entries (chapter 2) and the sweeps, breaks and recoveries of the field link
that lead to them (chapter 6). -/

namespace Sys2Proof.Machine

/-- The device state replaced. -/
def setDevice (d : DeviceState) (s : State) : State := s.onMc fun m => { m with state := d }

/-- The period timer replaced. -/
def setTimer (t : Option Nat) (s : State) : State := s.onBe fun b => { b with timer := t }

/-- The period lock state replaced. -/
def setLock (l : LockState) (s : State) : State := s.onBe fun b => { b with lock := l }

/-! ## The cursor and the round (R101) -/

/-- The cursor names the first exchange and the round's record is empty. -/
def freshRound (s : State) : State :=
  s.onFlc fun f => { f with cursor := 0, round := Vector.replicate 30 false }

/-- No actuator has been carried in the sweep that begins (R94). -/
def clearCarried (s : State) : State :=
  s.onAu fun u => { u with acts := vmap u.acts fun _ r => { r with carried := none } }

/-- A sweep over a list that is not empty begins at the cursor: its first request is due (R101, R103). -/
def dueAtCursor (s : State) : State :=
  (clearCarried s).onFlc fun f => { f with work := .due, after := .go, fromFirst := f.cursor == 0 }

/-! ## Ends of STARTING, PARKING and QUIESCING (R22, R25, R27) -/

/-- ACTIVE entry (R22). -/
def activeEntry (s : State) : State :=
  let c := completeTimed .modeActive (setDevice .active s)
  let placed := recomputeMeasurements (placeParked c)
  let lock := match s.mc.config with
    | some cfg => if cfg.lockEnable then LockState.locked else .off
    | none => .off
  markFirstPass true (setLock lock (setTimer (some 0) (publishFirst placed)))

/-- PARKED entry at the end of PARKING or QUIESCING (R25, R27, R101, R109, R113, R124). -/
def parkedEntry (a : CtrlAction) (s : State) : State :=
  let c := completeTimed a (setDevice .parked s)
  let off := (freshRound c).onFlc fun f => { f with work := .off, after := .go, fromFirst := false }
  recomputeMeasurements (parkChannels (setLock .off (setTimer none off)))

/-- Every enabled actuator's last DRIVE request in the sweep carried its rest value (R25). -/
def carriedRest (s : State) : Bool :=
  match s.mc.config with
  | none => true
  | some c =>
    (vlist c.acts).all fun a => !a.2.enable || (s.au.acts.get a.1).carried == some a.2.rest

/-- The PARKING test of a sweep completion (R25, R103). -/
def parkingTest (s : State) : Bool := s.flc.fromFirst && carriedRest s && s.dc.run.state == .idle

/-! ## Sweep completion, break and recovery (R103, R106, R107) -/

/-- The round's record shows no good reply from any enabled node, and the list is not empty (R107). -/
def silentRound (s : State) : Bool :=
  !(exchangeList s).isEmpty && (exchangeList s).all fun x => !s.flc.round.get x.entry

/-- A break begins (R106). -/
def beginBreak (s : State) : State := s.onFlc fun f => { f with work := .brk, after := .go }

/-- A recovery begins: it is counted, and its break begins (R107). -/
def beginRecovery (s : State) : State :=
  beginBreak (s.onFlc fun f => { f with recoveries := min (f.recoveries + 1) 65535 })

/-- After a round that is not silent and does not leave the state: the next sweep in PARKING, or in ACTIVE when
the event that begins it has come (R102, R104); otherwise the link waits. Over an empty list it waits. -/
def afterRound (resume : Bool) (s : State) : State :=
  let waits := s.onFlc fun f => { f with work := .waiting, after := .go }
  if resume && !(exchangeList s).isEmpty then dueAtCursor (freshRound waits) else freshRound waits

/-- The recovery test of a round completion at which the link stays on (R103, R107). -/
def recoveryTest (resume : Bool) (s : State) : State :=
  if silentRound s then freshRound (beginRecovery s) else afterRound resume s

/-- A sweep completes, and with it the round: the MC decides by the device state (R103). -/
def sweepComplete (s : State) : State :=
  let resume := s.flc.after == .cutResume
  match s.mc.state with
  | .starting => recoveryTest false (activeEntry (setWork .waiting s))
  | .quiescing => parkedEntry .quiesce s
  | .parking => if parkingTest s then parkedEntry .modeParked s else recoveryTest true s
  | .active => recoveryTest resume s
  | .unconfigured | .parked => s

/-- A sweep begins at the cursor; over an empty list it completes at its start (R101). -/
def beginSweep (s : State) : State :=
  if (exchangeList s).isEmpty then
    sweepComplete (s.onFlc fun f => { f with after := .go, fromFirst := true })
  else dueAtCursor s

/-- A sweep begins at the first exchange with the round's record emptied (R101). -/
def beginFirstSweep (s : State) : State := beginSweep (freshRound s)

/-- What follows an exchange, with the cursor still at it (R101, R104, R106). -/
def afterExchange (s : State) : State :=
  match s.flc.after with
  | .brk => beginBreak s
  | .first => beginFirstSweep s
  | .go | .cut | .cutResume =>
    let next := s.onFlc fun f => { f with cursor := f.cursor + 1 }
    if (exchangeList s).length ≤ s.flc.cursor + 1 then sweepComplete s
    else
      match s.flc.after with
      | .cut => next.onFlc fun f => { f with work := .waiting, after := .go }
      | .cutResume => dueAtCursor next
      | _ => setWork .due next

/-- An exchange completes with a result (R99 to R101). -/
def exchangeEnds (res : ExchangeResult) (s : State) : State :=
  match currentExchange s with
  | none => s
  | some x => afterExchange (handResults x res (updateNode x res s))

/-- A reply error is found (R96, R97). -/
def replyFails (k : MissKind) (ones : Nat) (s : State) : State := setWork (.failed k ones) s

/-- The characters received so far, while the receiver follows a reply. A character that has come whole has had
its start bit. -/
def replySoFar : LinkWork → Option (List Byte)
  | .window => some []
  | .char rx | .gap rx => some rx
  | .off | .brk | .preamble | .waiting | .due | .sending _ | .failed _ _ => none

/-- A reply character at the end of its stop bit (R96, R97). -/
def replyArrives (data : Byte) (mark stop : Bool) (s : State) : State :=
  match s.flc.work, replySoFar s.flc.work, currentExchange s with
  | .failed k _, _, _ => setWork (.failed k (trailingOnes data mark stop)) s
  | _, some rx, some x =>
    match judgeCharacter x (entryAddress s x.entry) rx data mark stop with
    | .more => setWork (.gap (rx ++ [data])) s
    | .error k => replyFails k (trailingOnes data mark stop) s
    | .good => exchangeEnds (.ok (replyPayload rx)) s
  | _, _, _ => s

/-- The close of the reply window (R95). -/
def windowCloses (s : State) : State :=
  match s.flc.work with
  | .window => exchangeEnds (.error .noReply) s
  | _ => s

/-- The 23rd bit time of a gap (R95, R97). -/
def gapTooLong (s : State) : State :=
  match s.flc.work with
  | .gap _ => replyFails .gap 23 s
  | _ => s

/-- The end of the wait after a reply error, by idle or by the bound (R97). -/
def errorWaitEnds (s : State) : State :=
  match s.flc.work with
  | .failed k _ => exchangeEnds (.error k) s
  | _ => s

/-- The break ends and its preamble begins at once (R106). -/
def breakEnds (s : State) : State :=
  match s.flc.work with
  | .brk => setWork .preamble s
  | _ => s

/-- The preamble ends: a further break that is due begins; otherwise the sweep of R102 begins at the first
exchange, in ACTIVE with a pass in flight at that pass's completion. -/
def preambleEnds (s : State) : State :=
  match s.flc.work with
  | .preamble =>
    if s.flc.after = .brk then beginBreak s
    else if s.mc.state = .active ∧ s.be.inFlight.isSome = true then
      (freshRound s).onFlc fun f => { f with work := .waiting, after := .go }
    else beginFirstSweep s
  | _ => s

/-! ## The link at the entries (R20, R24, R26, R108) -/

/-- An exchange is in flight: its request has begun and its result is not yet in. -/
def exchangeInFlight : LinkWork → Bool
  | .sending _ | .window | .char _ | .gap _ | .failed _ _ => true
  | .off | .brk | .preamble | .waiting | .due => false

/-- A break is asked for while the link is on: link work in flight runs to its end first (R106). -/
def requestBreak (s : State) : State :=
  match s.flc.work with
  | .off => s
  | .waiting | .due => beginBreak s
  | .brk | .preamble | .sending _ | .window | .char _ | .gap _ | .failed _ _ => setAfter .brk s

/-- The link at PARKING entry (R24, R102): the work in flight goes on; with none in flight a sweep begins; after
a cut the next sweep follows the exchange in flight. Over an empty list the next period expiry begins it. -/
def linkAtParking (s : State) : State :=
  match s.flc.work, s.flc.after with
  | .waiting, _ => if (exchangeList s).isEmpty then s else dueAtCursor s
  | _, .cut => setAfter .cutResume s
  | _, _ => s

/-- The link at QUIESCING entry (R26): the exchange, or the break and preamble, in flight completes, and one
sweep from the first exchange follows. -/
def linkAtQuiescing (s : State) : State :=
  match s.flc.work with
  | .brk | .preamble => setAfter .go s
  | .waiting | .due => beginFirstSweep s
  | .off => s
  | .sending _ | .window | .char _ | .gap _ | .failed _ _ => setAfter .first s

/-! ## Entries taken from CTRL (R20, R24, R26) -/

/-- STARTING entry (R20, R32, R124, R155). -/
def startingEntry (s : State) : State :=
  let entered := beginTimed .modeActive
    ((setDevice .starting s).onMc fun m => { m with wake := false, wakeTimer := none })
  if s.mc.state = .parked then beginBreak (setTimer (some 0) (setCommandsToRest entered))
  else requestBreak entered

/-- PARKING entry (R24). -/
def parkingEntry (s : State) : State :=
  let entered := beginTimed .modeParked (setDevice .parking s)
  let quiet := quietBalance (abortRun .parking (parkDirectives entered))
  linkAtParking (markFirstPass false (aimAtRest (clearDegraded quiet)))

/-- QUIESCING entry (R26). -/
def quiescingEntry (s : State) : State :=
  let entered := beginTimed .quiesce (setDevice .quiescing s)
  let quiet := quietBalance (quiesceRun (quiesceDirectives entered))
  linkAtQuiescing (markFirstPass false (aimAtRest (setCommandsToRest (clearDegraded quiet))))

/-! ## Period expiry and the pass (R104, R111, R124 to R127) -/

/-- The channels age and what follows from it (R111, R114, R180). -/
def agePeriod (s : State) : State := afterChannelEvent (ageChannels s)

/-- The FLC's part of a period expiry in ACTIVE: a sweep in flight is cut and an overrun reported; a break or
preamble in flight is not cut and an overrun reported (R104, R105). -/
def cutSweep (s : State) : State :=
  match s.flc.work with
  | .off | .waiting => s
  | .brk | .preamble => countOverrun s
  | .due => countOverrun (s.onFlc fun f => { f with work := .waiting, after := .go })
  | .sending _ | .window | .char _ | .gap _ | .failed _ _ =>
    countOverrun (if s.flc.after = .go ∨ s.flc.after = .cutResume then setAfter .cut s else s)

/-- A period expiry in ACTIVE: ageing, the PU's evaluation, the pass start and the overrun test (R111, R126, R164,
R104). -/
def activePeriod (s : State) : State := cutSweep (startPass (protectionEvaluation (agePeriod s)))

/-- A period expiry in PARKING: ageing, the step toward rest, and the sweep over an empty list (R25, R102).
DESIGN CHOICE (notes/assumptions/64.md): with the link waiting over a list that is not empty, in which state no run leaves
PARKING, a sweep begins at the cursor. -/
def parkingPeriod (s : State) : State :=
  let stepped := setTimer (some 0) (stepCommandsToRest (agePeriod s))
  if stepped.flc.work = .waiting then beginSweep stepped else stepped

/-- The time at which the period timer expires: 1.5 × P in ACTIVE while LOCKED, P otherwise (R124, R125). -/
def expiryTime (s : State) : Nat :=
  if s.mc.state = .active ∧ s.be.lock = .locked then 3 * periodOfState s / 2 else periodOfState s

/-- The period timer stands at its expiry. -/
def periodDue (s : State) : Bool :=
  match s.be.timer with
  | none => false
  | some t => decide (expiryTime s ≤ t)

/-- The period timer's expiry (R124, R125): it is taken when the timer stands at its expiry. Behind a commit that
restarts the timer it no longer falls due. -/
def timerExpires (s : State) : State :=
  if periodDue s then
    match s.mc.state with
    | .unconfigured | .parked => s
    | .starting | .quiescing => setTimer (some 0) (agePeriod s)
    | .parking => parkingPeriod s
    | .active => activePeriod (if s.be.lock = .locked then setLock .lockLost s else s)
  else s

/-- The BE's part of a commit (R125): in ACTIVE with the lock on, a commit at least P/2 after the last pass start
is a period expiry and leaves the lock LOCKED. -/
def lockCommit (s : State) : State :=
  if s.mc.state = .active ∧ s.be.lock ≠ .off ∧ halfPeriodPassed s = true then activePeriod (setLock .locked s)
  else s

/-- The FLC's part of a pass completion (R102, R104). -/
def sweepAtPass (s : State) : State :=
  match s.flc.work, s.flc.after with
  | .waiting, _ => beginSweep s
  | _, .cut => setAfter .cutResume s
  | _, _ => s

/-- The DC's part of a pass completion: the suspend test and the AUTO request (R148, R178, R182).
DESIGN CHOICE (notes/assumptions/62.md): the suspend test comes first, so the completion whose AUTO request starts a
run is not one at which that run is tested. -/
def defrostAtPass (r : PassResult) (s : State) : State :=
  let tested := suspendTest r.chillP s
  if frostRequests tested then autoRequest tested else tested

/-- A balance pass completes (R127): the BE's results, then the AU, the DU, the PI, the FLC and the DC. -/
def passCompletes (s : State) : State :=
  match s.be.inFlight with
  | none => s
  | some r =>
    let done := takeResults r s
    let settled := settledEvaluation (zmk fun z => (zget r.zones z).meas) (computeCommands r done)
    defrostAtPass r (sweepAtPass (countTowardReport settled))

/-! ## CONFIGURE and PORT_RESET (R29, R30) -/

/-- The frost is not above the new frost_limit (R147). -/
def capFrost (c : Cfg) (s : State) : State :=
  s.onBe fun b => { b with frost := min b.frost c.plant.frostLimit }

/-- A CONFIGURE that passes its checks replaces the committed configuration in every block (R29). -/
def commitConfiguration (c : Cfg) (s : State) : State :=
  let held := s.onMc fun m => { m with config := some c, state := .parked }
  let link := resetNodes (freshRound held)
  let measured := judgeCopy (recomputeMeasurements (clearChannels link))
  putLimits c (configureActs c (setLock .off (capFrost c measured)))

/-- PORT_RESET at the MC, MU and the other blocks (R30). The serial transaction, CTRL, a publication in flight
and the report area are kept by the PI; the clock, the line filters, the last valid measurements, and the locks
with their limits are kept by their owners. -/
def resetBlocks (s : State) : State :=
  let directives := resetDirectives s
  let protection := resetProtection directives
  { protection with
    pi :=
      { s.pi with
        cause := 0
        cmask := 0
        accessKind := .none
        accessAddr := 0
        busy := false
        lastAction := .action .portReset
        lastResult := .done
        divisorCount := 0 }
    mc := MC.reset
    flc := FLC.reset
    mu := { MU.reset with lastValid := s.mu.lastValid, filters := s.mu.filters }
    be := BE.reset
    au := AU.reset
    dc := DC.reset }

end Sys2Proof.Machine
end

