-- ==== Sys2Proof/Machine/Time.lean ====
section
/-! DEFINITION. The Calendar Clock's rollover and clock actions (chapter 5), the timers' expiries, and the
millisecond in which nothing is commanded. -/

namespace Sys2Proof.Machine

/-- A minute event: it is counted, and the DU makes its evaluation (R77, R80). -/
def minuteEvent (s : State) : State :=
  scheduleEvaluation true (s.onCc fun c => { c with minuteEvents := c.minuteEvents + 1 })

/-- The calendar a second later; past the calendar's end it starts again and is UNSET (R75, R76). -/
def advanceSecond (c : CC) : CC :=
  if c.time + 1 < Config.calendarSeconds then { c with time := c.time + 1, divider := 0 }
  else { c with time := 0, divider := 0, set := false }

/-- The divider stands at its end, 32,768 cycles (R75). -/
def rolloverDue (s : State) : Bool := decide (Config.dividerModulus ≤ s.cc.divider)

/-- A second rollover (R75, R77, R80): it is taken when the divider stands at its end. Behind a TIME_SET, which sets the
divider to 0, it does not occur. -/
def rollover (s : State) : State :=
  if rolloverDue s then
    let t := s.onCc advanceSecond
    beginRewrite (if t.cc.time % 60 = 0 then minuteEvent t else t)
  else s

/-- TIME_SET at the CC (R78). -/
def takeTimeSet (s : State) : State :=
  let f := clockSetFields s.xm
  if calendarFieldsValid f then
    scheduleEvaluation false
      (beginRewrite
        ((recordAction .timeSet .done s).onCc fun c =>
          { c with time := secondsOf f, divider := 0, set := true }))
  else recordAction .timeSet .badTime s

/-- A nudge is refused: out of −30..30, or out of the calendar (R79). -/
def nudgeRefused (time : Nat) (n : Int) : Bool :=
  decide (n < -30) || decide (30 < n) || decide ((time : Int) + n < 0)
    || decide ((Config.calendarSeconds : Int) ≤ (time : Int) + n)

/-- TIME_NUDGE at the CC (R79). -/
def takeTimeNudge (s : State) : State :=
  let n := nudgeSeconds s.xm
  if nudgeRefused s.cc.time n then recordAction .timeNudge .badTime s
  else
    let time := ((s.cc.time : Int) + n).toNat
    let t := (recordAction .timeNudge .done s).onCc fun c => { c with time := time }
    beginRewrite (if s.cc.time / 60 < time / 60 then minuteEvent t else scheduleEvaluation false t)

/-- The wake timer's expiry (R32): it is taken when the timer stands at its end. A timer that has been restarted or
stopped since has not expired. -/
def wakeExpires (s : State) : State :=
  if s.mc.wakeTimer = some 0 then endUnwoken (s.onMc fun m => { m with wake := false, wakeTimer := none }) else s

/-- The grant timeout (R122): it is taken when the time since the last commit has reached it. After a commit there
is no timeout. -/
def grantExpires (s : State) : State := if grantExpired s then copyGoesStale s else s

/-- What an accepted change of a line does at the MU, the DC and the DU (R118, R120). -/
def lineAccepted (l : Line) (level : Bool) (s : State) : State :=
  let flagged := raiseIf (l == .clvl && level) .fault (raise .line s)
  let defrost := if l = .hvok ∧ level = false then abortRun .hvok flagged else flagged
  scheduleEvaluation false defrost

/-- A sample of a line (R118). -/
def sampleLine (l : Line) (level : Bool) (s : State) : State :=
  if s.resetHeld then s
  else
    let (f, change) := filterSample (filterCount s l) level (lget s.mu.filters l)
    let t := s.onMu fun m => { m with filters := lset m.filters l f }
    if change then lineAccepted l level t else t

/-! ## The expiries of the defrost phases (R179, R180, R185, R187) -/

/-- The expiry of PREPARE's timer. -/
def prepareExpires (s : State) : State := if s.dc.run.state = .prepare then prepareEnds s else s

/-- The MELT time reaches melt_max (R180). -/
def meltExpires (s : State) : State :=
  if s.dc.run.state = .melt then enterDrip (onRun (fun r => { r with meltTime := meltLimit s }) s) else s

/-- The expiry of DRIP's timer. -/
def dripExpires (s : State) : State :=
  if s.dc.run.state = .drip then onRun (fun r => { r with state := .restore, phaseTimer := 0 }) s else s

/-- The expiry of RESTORE's timer (R187). -/
def restoreExpires (s : State) : State := if s.dc.run.state = .restore then restoreEnds s else s

/-- The suspended time reaches suspend_max (R185). -/
def suspendExpires (s : State) : State :=
  if s.dc.run.state = .suspended then
    abortRun .suspendTime (onRun (fun r => { r with suspendedTime := suspendLimit s }) s)
  else s

/-! ## A millisecond with no command

DESIGN CHOICE (notes/assumptions/2.md): on an empty queue a step is one millisecond of the part's clock and
crystal. The timers advance, and each expiry that falls due joins the queue as its own command. -/

/-- The run record a millisecond later (R177). -/
def elapseRun (r : RunRec) : RunRec :=
  match r.state with
  | .idle => r
  | .prepare | .drip | .restore => { r with phaseTimer := r.phaseTimer + 1 }
  | .melt => { r with phaseTimer := r.phaseTimer + 1, meltTime := r.meltTime + 1 }
  | .suspended => { r with suspendedTime := r.suspendedTime + 1 }

/-- Every timer a millisecond later. -/
def elapse (s : State) : State :=
  { s with
    mc := { s.mc with wakeTimer := s.mc.wakeTimer.map (· - 1) }
    cc := { s.cc with divider := s.cc.divider + Config.dividerPerMs }
    mu := { s.mu with commitAge := s.mu.commitAge.map (· + 1) }
    be := { s.be with timer := s.be.timer.map (· + 1) }
    dc := { s.dc with run := elapseRun s.dc.run } }

/-- The expiry of the DC that has fallen due (R179, R180, R185). -/
def defrostDue (s : State) : List Instr :=
  match s.mc.config with
  | none => []
  | some c =>
    let r := s.dc.run
    match r.state with
    | .idle => []
    | .prepare => if c.plant.prepareTime * 1000 ≤ r.phaseTimer then [.prepareEnd] else []
    | .melt => if c.plant.meltMax * 1000 ≤ r.meltTime then [.meltTimeLimit] else []
    | .drip => if c.plant.dripTime * 1000 ≤ r.phaseTimer then [.dripEnd] else []
    | .restore => if c.plant.restoreTime * 1000 ≤ r.phaseTimer then [.restoreEnd] else []
    | .suspended => if c.plant.suspendMax * 60000 ≤ r.suspendedTime then [.suspendTimeLimit] else []

/-- The expiries that have fallen due, in the order in which they join the queue. -/
def expiriesDue (s : State) : List Instr :=
  (if rolloverDue s then [.secondRollover] else [])
    ++ (if s.mc.wakeTimer = some 0 then [.wakeTimeout] else [])
    ++ (if grantExpired s then [.grantTimeout] else [])
    ++ defrostDue s
    ++ (if periodDue s then [.periodExpiry] else [])

/-- A millisecond in which nothing is commanded. -/
def tick (s : State) : State :=
  let t := elapse s
  { t with pending := t.pending ++ expiriesDue t }

end Sys2Proof.Machine
end

