-- ==== Sys2Proof/Machine/Port.lean ====
section
/-! DEFINITION. The port: the ownership map, the registers and the dispatch of the words that are actions
(chapter 1). -/

namespace Sys2Proof.Machine

/-! ## Addresses (R3, R4) -/

/-- Where an address lies. -/
inductive Region where
  | config
  /-- The vehicle page's words but the commit word, and the clock-set block. -/
  | page
  | commitWord
  | slot (n : Slot) (word : Nat)
  | summary (k : Nat)
  | report (k : Nat)
  | clock (k : Nat)
  | id | ctrl | stat | cause | cmask
  | unmapped
  deriving DecidableEq, Repr

/-- The region of an address in the directive table. -/
def slotRegion (n : Nat) : Region :=
  if h : n / 16 < 24 then .slot ⟨n / 16, h⟩ (n % 16) else .unmapped

/-- The region of an address (R3, R4). -/
def regionOf (addr : Addr) : Region :=
  let a := addr.toNat
  if a < 0x200 then .config
  else if a < 0x21F then .page
  else if a < 0x220 then .commitWord
  else if a < 0x230 then .page
  else if a < 0x300 then .unmapped
  else if a < 0x480 then slotRegion (a - 0x300)
  else if a < 0x500 then .unmapped
  else if a < 0x503 then .summary (a - 0x500)
  else if a < 0x600 then .unmapped
  else if a < 0x800 then .report (a - 0x600)
  else if a < 0x810 then .clock (a - 0x800)
  else if a < 0x1000 then .unmapped
  else
    match a - 0x1000 with
    | 0 => .id
    | 1 => .ctrl
    | 2 => .stat
    | 3 => .cause
    | 4 => .cmask
    | _ => .unmapped

/-- The state whose map a slot summary word is (R9). -/
def summaryState : Nat → SlotState
  | 0 => .ended
  | 1 => .active
  | _ => .waiting

/-- A word read inside a window (R13, R14). -/
def windowWord : Word := 0xFFFFFFFF

/-- The value a READ takes of a word, and the kind of the invalid access it makes, if it makes one (R3, R4, R7,
R13, R14, R15). -/
def readWord (s : State) (addr : Addr) : Word × Option AccessKind :=
  match regionOf addr with
  | .config | .page | .commitWord => (memRead s.xm addr.toNat, none)
  | .slot n word => (if word < 12 then memRead s.xm addr.toNat else statusWord (slotRec s n) (word - 12), none)
  | .summary k => (summaryWord s (summaryState k), none)
  | .report k =>
    if s.pi.publication.isSome then (windowWord, some .readInWindow) else (s.pi.report.getD k 0, none)
  | .clock k => if s.cc.rewrite.isSome then (windowWord, some .readInWindow) else (s.cc.page.getD k 0, none)
  | .id => (Config.idWord, none)
  | .ctrl => (s.pi.ctrl, none)
  | .stat => (statWord s, none)
  | .cause => (s.pi.cause.setWidth 32, none)
  | .cmask => (s.pi.cmask.setWidth 32, none)
  | .unmapped => (0, some .unmapped)

/-- A word is stored in the exchange memory. -/
def storeWord (addr : Nat) (v : Word) (s : State) : State := { s with xm := memWrite s.xm addr v }

/-! ## An access event (R1, R2) -/

/-- A word in this direction and at this address is the transaction's next (R1). The first word gives the direction
and the address; each later one has the transaction's direction and the address that follows. While RESETn is
asserted, outside a transaction and in a void one, there is none.
DESIGN CHOICE (notes/assumptions/5.md): the first access event stands for the command byte and the address too. -/
def wordDue (dir : Direction) (addr : Addr) (s : State) : Bool :=
  !s.resetHeld && (s.pi.port == .command || s.pi.port == .words dir addr)

/-- An access event of one word: the address after it is the next word's (0x0000 after 0xFFFF), `out` is on its way
out on SDO, and the access acts. What the host sends on SDI in a READ is ignored (R1). SDO's levels are `sdoAt`'s. -/
def accessEvent (dir : Direction) (addr : Addr) (out : Word) (act : State → State) (s : State) : State :=
  if wordDue dir addr s then act (s.onPi fun p => { p with port := .words dir (addr + 1), sdo := out }) else s

/-- The level of SDO `k` bit times after the last event of the port (R1). In a READ the word taken goes out, least
significant byte first and within a byte most significant bit first; after its 32nd bit, and so after the last whole
word, SDO is 0. It is 0 in every other phase: between transactions, in the command byte and the address, throughout a
WRITE and in a void transaction.
DEDUCED (notes/assumptions/6.md): between transactions, of which R1 does not speak, SDO is 0 too. -/
def sdoAt (s : State) (k : Nat) : Bool :=
  match s.pi.port with
  | .words .read _ => decide (k < 32) && s.pi.sdo.getLsbD (k / 8 * 8 + (7 - k % 8))
  | .words .write _ | .waiting | .command | .void => false

/-! ## CTRL (R16) -/

/-- A host write to CTRL is stored. -/
def storeCtrl (v : Word) (s : State) : State := s.onPi fun p => { p with ctrl := v }

/-- The cases in which an action is taken while BUSY is set. -/
def takenWhileBusy (a : CtrlAction) (d : DeviceState) : Bool :=
  match a with
  | .portReset => true
  | .quiesce => d == .starting || d == .parking
  | .modeParked => d == .starting
  | .modeActive => d == .parking
  | .linkReset => d == .starting
  | .configure | .clearFaults | .lockLimits | .timeSet | .timeNudge => false

/-- Test 3 of R16, then the owner's act. -/
def busyGate (a : CtrlAction) (act : State → State) (s : State) : State :=
  if s.pi.busy && !takenWhileBusy a s.mc.state then recordAction a .busy s else act s

/-- The word a CTRL action is written as. -/
def ctrlWordOf (a : CtrlAction) (param : CtrlParam) : Word :=
  BitVec.ofNat 32 (param.toNat * 256 + actionCode a)

/-- MODE_ACTIVE at the MC (R20). -/
def takeModeActive (s : State) : State :=
  if s.mc.state = .parked ∨ s.mc.state = .parking then startingEntry s else recordAction .modeActive .wrongState s

/-- MODE_PARKED at the MC (R23). -/
def takeModeParked (s : State) : State :=
  if s.mc.state = .active ∨ s.mc.state = .starting then parkingEntry s else recordAction .modeParked .wrongState s

/-- QUIESCE at the MC (R26). -/
def takeQuiesce (s : State) : State :=
  if s.mc.state = .starting ∨ s.mc.state = .active ∨ s.mc.state = .parking then quiescingEntry s
  else recordAction .quiesce .wrongState s

/-- CONFIGURE at the MC (R28, R29). -/
def takeConfigure (s : State) : State :=
  if s.mc.state = .unconfigured ∨ s.mc.state = .parked then
    let c := cfgOfArea s.xm
    match configureRefusal s.pu c with
    | some code => recordAction .configure code s
    | none => recordAction .configure .done (commitConfiguration c s)
  else recordAction .configure .wrongState s

/-- PORT_RESET at every block (R30). -/
def takePortReset (s : State) : State := resetBlocks s

/-- LINK_RESET at the FLC (R108). -/
def takeLinkReset (s : State) : State :=
  if s.mc.state = .unconfigured then recordAction .linkReset .wrongState s
  else
    let t := recordAction .linkReset .done (resetNodesHanded s)
    if s.mc.state = .starting ∨ s.mc.state = .active then requestBreak t else t

/-- CLEAR_FAULTS at the AU (R160). -/
def takeClearFaults (s : State) : State := recordAction .clearFaults .done (clearLatches s)

/-- LOCK_LIMITS at the PU (R175). -/
def takeLockLimits (param : CtrlParam) (s : State) : State :=
  if s.mc.state = .unconfigured then recordAction .lockLimits .wrongState s
  else recordAction .lockLimits .done (lockZones param.toNat s)

/-- An action at its owner. -/
def takeAction (a : CtrlAction) (param : CtrlParam) : State → State :=
  match a with
  | .modeActive => takeModeActive
  | .modeParked => takeModeParked
  | .configure => takeConfigure
  | .quiesce => takeQuiesce
  | .portReset => takePortReset
  | .linkReset => takeLinkReset
  | .clearFaults => takeClearFaults
  | .lockLimits => takeLockLimits param
  | .timeSet => takeTimeSet
  | .timeNudge => takeTimeNudge

/-- The action of a CTRL code. -/
def actionOf : Nat → Option CtrlAction
  | 1 => some .modeActive
  | 2 => some .modeParked
  | 3 => some .configure
  | 4 => some .quiesce
  | 5 => some .portReset
  | 6 => some .linkReset
  | 7 => some .clearFaults
  | 8 => some .lockLimits
  | 9 => some .timeSet
  | 10 => some .timeNudge
  | _ => none

/-- A CTRL write whose code is not an action (R16). -/
def refuseUnknown (s : State) : State :=
  s.onPi fun p => { p with lastAction := .unknown, lastResult := .unknownAction }

/-- A host write to CTRL: the word is stored and the tests of R16 follow. -/
def writeCtrl (v : Word) (s : State) : State :=
  let t := storeCtrl v s
  let code := v.toNat % 256
  if code = 0 then t
  else
    match actionOf code with
    | none => refuseUnknown t
    | some a => busyGate a (takeAction a (v.extractLsb' 8 24)) t

/-! ## Slot control words and the commit word (R6, R7, R35) -/

/-- A control word's action (R35). -/
def slotAction (n : Slot) (v : Word) (s : State) : State :=
  match v.toNat with
  | 1 => slotGate (· == .empty) n (takePost n) s
  | 2 => slotGate liveState n (takeAmend n) s
  | 3 => slotGate liveState n (takeRetract n) s
  | 4 => slotGate (· == .ended) n (takeRelease n) s
  | _ =>
    if s.mc.state = .unconfigured then setResult .refusedMode n s else setResult .unknownAction n s

/-- A host write to a slot's control word: it is stored, and a nonzero value is an action. -/
def writeControl (n : Slot) (v : Word) (s : State) : State :=
  let t := storeWord (slotAddr n 0) v s
  if v = 0 then t else slotAction n v t

/-- A commit (R6, R121, R125). -/
def writeCommit (v : Word) (s : State) : State := lockCommit (takeCommit (storeWord 0x21F v s))

/-! ## Host writes (R4, R5, R7, R15) -/

/-- A host write to a slot's word (R7). -/
def writeSlotWord (n : Slot) (word : Nat) (addr : Addr) (v : Word) (s : State) : State :=
  if word = 0 then writeControl n v s
  else if word < 10 then
    if (slotRec s n).state = .empty then storeWord addr.toNat v s else recordAccess .writeHeld addr s
  else if word < 12 then storeWord addr.toNat v s
  else recordAccess .writeOwned addr s

/-- A host write of one word, by the ownership map. -/
def writeWord (addr : Addr) (v : Word) (s : State) : State :=
  match regionOf addr with
  | .config =>
    if s.mc.state = .unconfigured ∨ s.mc.state = .parked then storeWord addr.toNat v s
    else recordAccess .writeFrozen addr s
  | .page => storeWord addr.toNat v s
  | .commitWord => writeCommit v s
  | .slot n word => writeSlotWord n word addr v s
  | .summary _ | .report _ | .clock _ | .id | .stat => recordAccess .writeOwned addr s
  | .ctrl => writeCtrl v s
  | .cause => clearCauses v s
  | .cmask => storeMask v s
  | .unmapped => recordAccess .unmapped addr s

/-- An access record entry, where an access is invalid. -/
def recordInvalid (kind : Option AccessKind) (addr : Addr) (s : State) : State :=
  match kind with
  | none => s
  | some k => recordAccess k addr s

/-! ## The port outside its words (R1, R19) -/

/-- The fall of SSn begins a transaction at a port that waits for it (R1). -/
def beginTransaction (s : State) : State :=
  if s.resetHeld = false ∧ s.pi.port = .waiting then s.onPi fun p => { p with port := .command, sdo := 0 } else s

/-- The rise of SSn (R1). -/
def endTransaction (s : State) : State := s.onPi fun p => { p with port := .waiting, sdo := 0 }

/-- A command byte (R1): at the start of a transaction, one that is neither READ nor WRITE makes the transaction
void. In every other phase of the port no command byte is due, and there is none. -/
def takeCommandByte (b : Byte) (s : State) : State :=
  if s.resetHeld = false ∧ s.pi.port = .command ∧ b ≠ Config.readByte ∧ b ≠ Config.writeByte then
    recordAccess .badCommand 0 (s.onPi fun p => { p with port := .void, sdo := 0 })
  else s

/-- Power-on reset (R19): every block takes its power-on values, and RESETn is asserted. The commands that wait
are the sender's, not the part's. -/
def resetAll (s : State) : State := { State.reset with pending := s.pending, resetHeld := true }

end Sys2Proof.Machine
end

