-- ==== Sys2Proof/Machine/BalanceCommands.lean ====
section
/-! DEFINITION. Meanings: the vehicle page, the status lines and the balance pass. -/

namespace Sys2Proof.Machine

/-- COMMIT (R6, R121, R125). -/
def execCommit (value : Word) (s : State) : Host.Outcome State Fault Refusal :=
  .next (accessEvent .write 0x021F 0 (writeCommit value) s)

/-- GRANT_TIMEOUT (R122). -/
def execGrantTimeout (s : State) : Host.Outcome State Fault Refusal :=
  .next (grantExpires s)

/-- LINE_SAMPLE (R118, R120). -/
def execLineSample (line : Line) (level : Bool) (s : State) : Host.Outcome State Fault Refusal :=
  .next (sampleLine line level s)

/-- PERIOD_EXPIRY (R124, R125). -/
def execPeriodExpiry (s : State) : Host.Outcome State Fault Refusal :=
  .next (timerExpires s)

/-- PASS_COMPLETION (R127). -/
def execPassCompletion (s : State) : Host.Outcome State Fault Refusal :=
  .next (passCompletes s)

end Sys2Proof.Machine
end

