-- ==== Sys2Proof/Machine/ClockCommands.lean ====
section
/-! DEFINITION. Meanings: the calendar clock and the wake timer. -/

namespace Sys2Proof.Machine

/-- SECOND_ROLLOVER (R75). -/
def execSecondRollover (s : State) : Host.Outcome State Fault Refusal :=
  .next (rollover s)

/-- CLOCK_PAGE_REWRITE_COMPLETION (R14). -/
def execClockPageRewriteCompletion (s : State) : Host.Outcome State Fault Refusal :=
  .next (completeRewrite s)

/-- WAKE_TIMEOUT (R32). -/
def execWakeTimeout (s : State) : Host.Outcome State Fault Refusal :=
  .next (wakeExpires s)

end Sys2Proof.Machine
end

