-- ==== Sys2Proof/Machine/DefrostCommands.lean ====
section
/-! DEFINITION. Meanings: the defrost phases. -/

namespace Sys2Proof.Machine

/-- PREPARE_END (R179, R183). -/
def execPrepareEnd (s : State) : Host.Outcome State Fault Refusal :=
  .next (prepareExpires s)

/-- MELT_TIME_LIMIT (R180). -/
def execMeltTimeLimit (s : State) : Host.Outcome State Fault Refusal :=
  .next (meltExpires s)

/-- DRIP_END (R179). -/
def execDripEnd (s : State) : Host.Outcome State Fault Refusal :=
  .next (dripExpires s)

/-- RESTORE_END (R187). -/
def execRestoreEnd (s : State) : Host.Outcome State Fault Refusal :=
  .next (restoreExpires s)

/-- SUSPEND_TIME_LIMIT (R185). -/
def execSuspendTimeLimit (s : State) : Host.Outcome State Fault Refusal :=
  .next (suspendExpires s)

end Sys2Proof.Machine
end

