-- ==== Sys2Proof/Machine/LinkCommands.lean ====
section
/-! DEFINITION. Meanings: the field link. -/

namespace Sys2Proof.Machine

/-- REQUEST_START (R91). -/
def execRequestStart (s : State) : Host.Outcome State Fault Refusal :=
  .next (requestStarts s)

/-- REQUEST_LAST_STOP_BIT_END (R95). -/
def execRequestLastStopBitEnd (s : State) : Host.Outcome State Fault Refusal :=
  .next (requestEnds s)

/-- START_BIT (R95, R97). -/
def execStartBit (s : State) : Host.Outcome State Fault Refusal :=
  .next (startBitBegins s)

/-- REPLY_CHARACTER (R96). -/
def execReplyCharacter (data : Byte) (mark stop : Bool) (s : State) : Host.Outcome State Fault Refusal :=
  .next (replyArrives data mark stop s)

/-- REPLY_WINDOW_EXPIRY (R95). -/
def execReplyWindowExpiry (s : State) : Host.Outcome State Fault Refusal :=
  .next (windowCloses s)

/-- GAP_TIMEOUT (R95). -/
def execGapTimeout (s : State) : Host.Outcome State Fault Refusal :=
  .next (gapTooLong s)

/-- LINE_IDLE (R97). -/
def execLineIdle (s : State) : Host.Outcome State Fault Refusal :=
  .next (errorWaitEnds s)

/-- ERROR_BOUND (R97). -/
def execErrorBound (s : State) : Host.Outcome State Fault Refusal :=
  .next (errorWaitEnds s)

/-- BREAK_COMPLETION (R106). -/
def execBreakCompletion (s : State) : Host.Outcome State Fault Refusal :=
  .next (breakEnds s)

/-- PREAMBLE_COMPLETION (R106). -/
def execPreambleCompletion (s : State) : Host.Outcome State Fault Refusal :=
  .next (preambleEnds s)

end Sys2Proof.Machine
end

