-- ==== Sys2Proof/Machine/ModeCommands.lean ====
section
/-! DEFINITION. Meanings: the CTRL actions (R16). -/

namespace Sys2Proof.Machine

/-- A CTRL write that is an action (R16): the word is stored, the BUSY test is made, and the owner acts. -/
def ctrlCommand (a : CtrlAction) (param : CtrlParam) (take : State → State) (s : State) : State :=
  accessEvent .write 0x1001 0 (fun t => busyGate a take (storeCtrl (ctrlWordOf a param) t)) s

/-- UNKNOWN_ACTION (R16). -/
def execUnknownAction (value : Word) (s : State) : Host.Outcome State Fault Refusal :=
  .next (accessEvent .write 0x1001 0 (writeCtrl value) s)

/-- MODE_ACTIVE (R20). -/
def execModeActive (param : CtrlParam) (s : State) : Host.Outcome State Fault Refusal :=
  .next (ctrlCommand .modeActive param takeModeActive s)

/-- MODE_PARKED (R23). -/
def execModeParked (param : CtrlParam) (s : State) : Host.Outcome State Fault Refusal :=
  .next (ctrlCommand .modeParked param takeModeParked s)

/-- QUIESCE (R26). -/
def execQuiesce (param : CtrlParam) (s : State) : Host.Outcome State Fault Refusal :=
  .next (ctrlCommand .quiesce param takeQuiesce s)

/-- CONFIGURE (R28, R29). -/
def execConfigure (param : CtrlParam) (s : State) : Host.Outcome State Fault Refusal :=
  .next (ctrlCommand .configure param takeConfigure s)

/-- PORT_RESET (R30). -/
def execPortReset (param : CtrlParam) (s : State) : Host.Outcome State Fault Refusal :=
  .next (ctrlCommand .portReset param takePortReset s)

/-- LINK_RESET (R108). -/
def execLinkReset (param : CtrlParam) (s : State) : Host.Outcome State Fault Refusal :=
  .next (ctrlCommand .linkReset param takeLinkReset s)

/-- CLEAR_FAULTS (R160). -/
def execClearFaults (param : CtrlParam) (s : State) : Host.Outcome State Fault Refusal :=
  .next (ctrlCommand .clearFaults param takeClearFaults s)

/-- LOCK_LIMITS (R175). -/
def execLockLimits (param : CtrlParam) (s : State) : Host.Outcome State Fault Refusal :=
  .next (ctrlCommand .lockLimits param (takeLockLimits param) s)

/-- TIME_SET (R78). -/
def execTimeSet (param : CtrlParam) (s : State) : Host.Outcome State Fault Refusal :=
  .next (ctrlCommand .timeSet param takeTimeSet s)

/-- TIME_NUDGE (R79). -/
def execTimeNudge (param : CtrlParam) (s : State) : Host.Outcome State Fault Refusal :=
  .next (ctrlCommand .timeNudge param takeTimeNudge s)

end Sys2Proof.Machine
end

