-- ==== Sys2Proof/Machine/PortCommands.lean ====
section
/-! DEFINITION. Meanings: the reset pin, the serial transaction and the plain accesses. -/

namespace Sys2Proof.Machine

/-- POWER_ON_RESET (R19). -/
def execPowerOnReset (s : State) : Host.Outcome State Fault Refusal :=
  .next (resetAll s)

/-- RESETN_RELEASE (R1, R118): the port listens to SSn again and the filters begin sampling. -/
def execResetnRelease (s : State) : Host.Outcome State Fault Refusal :=
  .next ({ s with resetHeld := false })

/-- SSN_FALL (R1). -/
def execSsnFall (s : State) : Host.Outcome State Fault Refusal :=
  .next (beginTransaction s)

/-- BAD_COMMAND (R1). -/
def execBadCommand (byte : Byte) (s : State) : Host.Outcome State Fault Refusal :=
  .next (takeCommandByte byte s)

/-- TRANSACTION_END (R1). -/
def execTransactionEnd (s : State) : Host.Outcome State Fault Refusal :=
  .next (endTransaction s)

/-- HOST_READ_WORD (R2). -/
def execHostReadWord (addr : Addr) (s : State) : Host.Outcome State Fault Refusal :=
  .next (accessEvent .read addr (readWord s addr).1 (recordInvalid (readWord s addr).2 addr) s)

/-- HOST_WRITE_WORD (R4). -/
def execHostWriteWord (addr : Addr) (value : Word) (s : State) : Host.Outcome State Fault Refusal :=
  .next (accessEvent .write addr 0 (writeWord addr value) s)

/-- CAUSE_WRITE (R17). -/
def execCauseWrite (value : Word) (s : State) : Host.Outcome State Fault Refusal :=
  .next (accessEvent .write 0x1003 0 (clearCauses value) s)

/-- CMASK_WRITE (R18). -/
def execCmaskWrite (value : Word) (s : State) : Host.Outcome State Fault Refusal :=
  .next (accessEvent .write 0x1004 0 (storeMask value) s)

/-- PUBLICATION_COMPLETION (R12). -/
def execPublicationCompletion (s : State) : Host.Outcome State Fault Refusal :=
  .next (completePublication s)

end Sys2Proof.Machine
end

