-- ==== Sys2Proof/Machine/SlotCommands.lean ====
section
/-! DEFINITION. Meanings: the slot actions (R35). -/

namespace Sys2Proof.Machine

/-- A write of an action code to a slot's control word (R7, R35): the word is stored and the DU acts. -/
def slotCommand (n : Slot) (code : Nat) (act : State → State) (s : State) : State :=
  accessEvent .write (BitVec.ofNat 16 (slotAddr n 0)) 0
    (fun t => act (storeWord (slotAddr n 0) (BitVec.ofNat 32 code) t)) s

/-- POST (R36, R37). -/
def execPost (slot : Slot) (s : State) : Host.Outcome State Fault Refusal :=
  .next (slotCommand slot 1 (slotGate (· == .empty) slot (takePost slot)) s)

/-- AMEND (R38). -/
def execAmend (slot : Slot) (s : State) : Host.Outcome State Fault Refusal :=
  .next (slotCommand slot 2 (slotGate liveState slot (takeAmend slot)) s)

/-- RETRACT (R39, R40). -/
def execRetract (slot : Slot) (s : State) : Host.Outcome State Fault Refusal :=
  .next (slotCommand slot 3 (slotGate liveState slot (takeRetract slot)) s)

/-- RELEASE (R41). -/
def execRelease (slot : Slot) (s : State) : Host.Outcome State Fault Refusal :=
  .next (slotCommand slot 4 (slotGate (· == .ended) slot (takeRelease slot)) s)

/-- SLOT_UNKNOWN_ACTION (R35). -/
def execSlotUnknownAction (slot : Slot) (value : Word) (s : State) : Host.Outcome State Fault Refusal :=
  .next (accessEvent .write (BitVec.ofNat 16 (slotAddr slot 0)) 0 (writeControl slot value) s)

end Sys2Proof.Machine
end

