-- ==== Sys2Proof/Machine/Dispatch.lean ====
section
/-! DEFINITION. One arm for each command: a direct call of its meaning. -/

namespace Sys2Proof.Machine

/-- A command's effect on everything but the queue. -/
def exec (i : Instr) (s : State) : Host.Outcome State Fault Refusal :=
  match i with
  | .powerOnReset => Sys2Proof.Machine.execPowerOnReset s
  | .badCommand byte => Sys2Proof.Machine.execBadCommand byte s
  | .transactionEnd => Sys2Proof.Machine.execTransactionEnd s
  | .hostReadWord addr => Sys2Proof.Machine.execHostReadWord addr s
  | .hostWriteWord addr value => Sys2Proof.Machine.execHostWriteWord addr value s
  | .commit value => Sys2Proof.Machine.execCommit value s
  | .causeWrite value => Sys2Proof.Machine.execCauseWrite value s
  | .cmaskWrite value => Sys2Proof.Machine.execCmaskWrite value s
  | .unknownAction value => Sys2Proof.Machine.execUnknownAction value s
  | .modeActive param => Sys2Proof.Machine.execModeActive param s
  | .modeParked param => Sys2Proof.Machine.execModeParked param s
  | .quiesce param => Sys2Proof.Machine.execQuiesce param s
  | .configure param => Sys2Proof.Machine.execConfigure param s
  | .portReset param => Sys2Proof.Machine.execPortReset param s
  | .linkReset param => Sys2Proof.Machine.execLinkReset param s
  | .clearFaults param => Sys2Proof.Machine.execClearFaults param s
  | .lockLimits param => Sys2Proof.Machine.execLockLimits param s
  | .timeSet param => Sys2Proof.Machine.execTimeSet param s
  | .timeNudge param => Sys2Proof.Machine.execTimeNudge param s
  | .post slot => Sys2Proof.Machine.execPost slot s
  | .amend slot => Sys2Proof.Machine.execAmend slot s
  | .retract slot => Sys2Proof.Machine.execRetract slot s
  | .release slot => Sys2Proof.Machine.execRelease slot s
  | .slotUnknownAction slot value => Sys2Proof.Machine.execSlotUnknownAction slot value s
  | .secondRollover => Sys2Proof.Machine.execSecondRollover s
  | .clockPageRewriteCompletion => Sys2Proof.Machine.execClockPageRewriteCompletion s
  | .wakeTimeout => Sys2Proof.Machine.execWakeTimeout s
  | .periodExpiry => Sys2Proof.Machine.execPeriodExpiry s
  | .passCompletion => Sys2Proof.Machine.execPassCompletion s
  | .publicationCompletion => Sys2Proof.Machine.execPublicationCompletion s
  | .grantTimeout => Sys2Proof.Machine.execGrantTimeout s
  | .lineSample line level => Sys2Proof.Machine.execLineSample line level s
  | .requestStart => Sys2Proof.Machine.execRequestStart s
  | .replyCharacter data mark stop => Sys2Proof.Machine.execReplyCharacter data mark stop s
  | .replyWindowExpiry => Sys2Proof.Machine.execReplyWindowExpiry s
  | .gapTimeout => Sys2Proof.Machine.execGapTimeout s
  | .lineIdle => Sys2Proof.Machine.execLineIdle s
  | .errorBound => Sys2Proof.Machine.execErrorBound s
  | .breakCompletion => Sys2Proof.Machine.execBreakCompletion s
  | .preambleCompletion => Sys2Proof.Machine.execPreambleCompletion s
  | .prepareEnd => Sys2Proof.Machine.execPrepareEnd s
  | .meltTimeLimit => Sys2Proof.Machine.execMeltTimeLimit s
  | .dripEnd => Sys2Proof.Machine.execDripEnd s
  | .restoreEnd => Sys2Proof.Machine.execRestoreEnd s
  | .suspendTimeLimit => Sys2Proof.Machine.execSuspendTimeLimit s
  | .ssnFall => Sys2Proof.Machine.execSsnFall s
  | .resetnRelease => Sys2Proof.Machine.execResetnRelease s
  | .requestLastStopBitEnd => Sys2Proof.Machine.execRequestLastStopBitEnd s
  | .startBit => Sys2Proof.Machine.execStartBit s

end Sys2Proof.Machine
end

