-- ==== Sys2Proof/Safety.lean ====
section
/-! DEFINITION. What a safe state of the part is, in the terms the statements use. -/

namespace Sys2Proof.Machine

/-- The device state is one of the three that a timed action holds (2.1). -/
def moving : DeviceState → Bool
  | .starting | .parking | .quiescing => true
  | .unconfigured | .parked | .active => false

/-- BUSY is set exactly in the moving states (layouts 13.2). -/
def busyMatchesState (s : State) : Prop := s.pi.busy = moving s.mc.state

/-- The lock state is OFF in UNCONFIGURED and in PARKED (R125). -/
def lockOffAtRest (s : State) : Prop :=
  s.mc.state = .unconfigured ∨ s.mc.state = .parked → s.be.lock = .off

/-- Every zone stack holds at most four entries (R45, R59). -/
def stacksBounded (s : State) : Prop := ∀ z, (stackOf s z).length ≤ Config.stackCapacity

/-- The host-written words are in canonical form. -/
def memoryCanonical (s : State) : Prop := Memory.wf s.xm = true

/-- Every tracking count is at most 3 (9.1). -/
def trackingBounded (s : State) : Prop := ∀ a, (s.au.acts.get a).tracking ≤ 3

/-- The overrun and recovery counts do not pass 65,535 (R107, R128). -/
def countsBounded (s : State) : Prop := s.be.overruns ≤ 65535 ∧ s.flc.recoveries ≤ 65535

/-- The link is off exactly in UNCONFIGURED and PARKED (R102, R109). -/
def linkMatchesState (s : State) : Prop :=
  s.flc.work = .off ↔ s.mc.state = .unconfigured ∨ s.mc.state = .parked

/-- A device state other than UNCONFIGURED stands on a committed configuration (R19, R29). -/
def configuredUnlessReset (s : State) : Prop := s.mc.state = .unconfigured ↔ s.mc.config = none

/-! ## The lists of the Directive Unit (R34, R45, R47, R56, R57, R59) -/

/-- Slot `i`'s directive stands before slot `j`'s in wait-list order: by class, within a class by due stamp, and within
equal stamps by slot number (R47). -/
def waitsFirst (s : State) (i j : Slot) : Prop :=
  let due := fun k => (slotRec s k).due.getD 0
  slotRank s i < slotRank s j ∨
    (slotRank s i = slotRank s j ∧ (due i < due j ∨ (due i = due j ∧ i.val < j.val)))

/-- Every stack stands by class from the top, and every wait list in wait-list order (R47, R59); neither has repeats. -/
def listsInOrder (s : State) : Prop :=
  ∀ z, (stackOf s z).Nodup ∧ (waitOf s z).Nodup ∧
    (stackOf s z).Pairwise (fun i j => slotRank s i ≤ slotRank s j) ∧ (waitOf s z).Pairwise (waitsFirst s)

/-- A zone's stack holds exactly the ACTIVE directives of kind SETPOINT and REACH for that zone, and its wait list exactly
the WAITING ones (R45, R47). -/
def listsHoldTheirZone (s : State) : Prop :=
  let layered := fun i z => ∃ w, (slotRec s i).work = some w ∧ w.kind ≠ .procedure ∧ w.zone = z
  ∀ z i,
    (i ∈ stackOf s z ↔ (slotRec s i).state = .active ∧ layered i z) ∧
      (i ∈ waitOf s z ↔ (slotRec s i).state = .waiting ∧ layered i z)

/-- No slot stands in a stack and in a wait list, nor in the lists of two zones (R45, R47). -/
def listsApart (s : State) : Prop :=
  (∀ y z i, i ∈ stackOf s y → i ∉ waitOf s z) ∧
    ∀ y z i, (i ∈ stackOf s y ∧ i ∈ stackOf s z) ∨ (i ∈ waitOf s y ∧ i ∈ waitOf s z) → y = z

/-- In ACTIVE a wait list holds a directive only while its zone's stack is full; in every other device state the stacks
are empty (3.5, R59). -/
def waitsOnlyWhileFull (s : State) : Prop :=
  if s.mc.state = .active then ∀ z, waitOf s z ≠ [] → (stackOf s z).length = 4 else ∀ z, stackOf s z = []

/-- A slot has a working record exactly while it is PENDING, WAITING or ACTIVE (R34, R54). -/
def liveSlotsHaveARecord (s : State) : Prop :=
  ∀ i, (slotRec s i).work.isSome = true ↔
    (slotRec s i).state = .pending ∨ (slotRec s i).state = .waiting ∨ (slotRec s i).state = .active

/-- An ACTIVE PROCEDURE is the one that started the run in progress (R56, R57). -/
def activeProcedureRuns (s : State) : Prop :=
  ∀ n, ((slotRec s n).state = .active ∧ ∃ w, (slotRec s n).work = some w ∧ w.kind = .procedure) ↔
    s.dc.run.state ≠ .idle ∧ s.dc.run.origin = some (.slot n)

/-- The Directive Unit's stacks and wait lists are as chapter 3 has them. -/
def directiveLists (s : State) : Prop :=
  stacksBounded s ∧ listsInOrder s ∧ listsHoldTheirZone s ∧ listsApart s ∧ waitsOnlyWhileFull s ∧
    liveSlotsHaveARecord s ∧ activeProcedureRuns s

/-- A slot stands in a stack as the entry placed there last: below every entry of a higher class, above every other
(R59). -/
def standsInStack (s : State) (z : Zone) (n : Slot) : Prop :=
  ∃ above below, stackOf s z = above ++ n :: below ∧ (∀ j ∈ above, slotRank s j < slotRank s n) ∧
    ∀ j ∈ below, slotRank s n ≤ slotRank s j

/-- A slot stands in its place in a wait list (R47). -/
def standsInWaitList (s : State) (z : Zone) (n : Slot) : Prop :=
  ∃ ahead behind, waitOf s z = ahead ++ n :: behind ∧ (∀ j ∈ ahead, waitsFirst s j n) ∧
    ∀ j ∈ behind, waitsFirst s n j

/-- A record as its slot is placed (R45): ACTIVE with the placed item set and a SETTLED count of 0; the due stamp and every
other item are kept. -/
def placedRecord (r : SlotRec) : SlotRec :=
  { r with
    state := .active
    reason := none
    placed := true
    work := r.work.map fun w => { w with settledCount := 0 } }

/-- A record as its slot begins to wait (R46, R47): WAITING for a reason with a SETTLED count of 0; the due stamp, the
placed item and every other item are kept. -/
def waitingRecord (reason : Reason) (r : SlotRec) : SlotRec :=
  { r with
    state := .waiting
    reason := some reason
    work := r.work.map fun w => { w with settledCount := 0 } }

/-- From `s` to `t`, the free places beside the entries `old` of a zone's stack are filled from the head of the wait list
`wait`, one after another (R44, R45, R48): each stands above every other entry of its class, and the old entries keep
their order. -/
def refilledFrom (s t : State) (z : Zone) (old wait : List Slot) : Prop :=
  let new := wait.take (4 - old.length)
  waitOf t z = wait.drop (4 - old.length) ∧ (∀ i, i ∈ stackOf t z ↔ i ∈ old ∨ i ∈ new) ∧
    (stackOf t z).filter (fun i => !new.contains i) = old ∧
    ((stackOf t z).Pairwise fun i j =>
      slotRank s i < slotRank s j ∨
        (slotRank s i = slotRank s j ∧ (j ∈ new → i ∈ new ∧ [j, i].Sublist wait))) ∧
    ∀ i ∈ new, (slotRec t i).state = .active ∧ (slotRec t i).reason = none ∧ (slotRec t i).placed = true ∧
      (slotRec t i).due = (slotRec s i).due ∧ ∃ w, (slotRec t i).work = some w ∧ w.settledCount = 0

/-- The run record after an abort (R186): a run in PREPARE, MELT, DRIP or SUSPENDED enters RESTORE with its phase timer
at 0, the aborted mark set, no suspend pending and no phase remembered; one in RESTORE takes the mark where it has none;
and what the table does not name is kept. -/
def abortedBy (cause : AbortCause) (r : RunRec) : RunRec :=
  match r.state with
  | .idle => r
  | .restore => if r.aborted = none then { r with aborted := some cause } else r
  | .prepare | .melt | .drip | .suspended =>
    { r with
      state := .restore
      aborted := some cause
      phaseTimer := 0
      pendingSuspend := false
      remembered := none }

/-! ## Further invariants -/

/-- The committed configuration has passed check 1 (R28). -/
def configInRange (s : State) : Prop := ∀ c, s.mc.config = some c → checkRanges c = true

/-- The limits in force and the locked values of every zone keep the orderings of R163; the cold fields are a
pack's. -/
def limitsOrdered (s : State) : Prop :=
  ∀ z l, (zget s.pu.zones z).limits = some l ∨ (zget s.pu.zones z).locked = some l →
    l.tmin ≤ l.tmax ∧ l.lowProtect < l.softHi ∧ l.softHi < l.hardHi ∧ 0 ≤ l.hysteresis ∧
      (isPack z = true → l.coldZero < l.coldFull)

/-- The hard state is held only while high protect is held (R167). -/
def hardOnlyWithHigh (s : State) : Prop :=
  ∀ z, (zget s.pu.zones z).hard = true → (zget s.pu.zones z).high = true

/-- The command of every enabled actuator lies within its [min, max] (R155). -/
def commandsInRange (s : State) : Prop :=
  ∀ c, s.mc.config = some c → ∀ a v, (c.acts.get a).enable = true → (s.au.acts.get a).command = some v →
    (c.acts.get a).min ≤ v ∧ v ≤ (c.acts.get a).max

/-- The frost estimate lies in 0..frost_limit (R146, R147). -/
def frostInRange (s : State) : Prop :=
  0 ≤ s.be.frost ∧ ∀ c, s.mc.config = some c → s.be.frost ≤ c.plant.frostLimit

/-! ## The terms of an access -/

/-- The port takes a word in this direction at this address (R1): RESETn is released, and the word is the first of
its transaction, or the transaction has this direction and this is the address of its next word. -/
def portTakes (dir : Direction) (a : Addr) (s : State) : Prop :=
  s.resetHeld = false ∧ (s.pi.port = .command ∨ s.pi.port = .words dir a)

/-- The port takes a write of CTRL. -/
def ctrlTakes (s : State) : Prop := portTakes .write 0x1001 s

/-- The port takes a write of a slot's control word. -/
def slotTakes (n : Slot) (s : State) : Prop := portTakes .write (BitVec.ofNat 16 (0x300 + 16 * n.val)) s

/-- The state after an access event that does nothing else: the next word's address follows, and `out` is on its
way out (R1, R2). -/
def accessed (dir : Direction) (a : Addr) (out : Word) (s : State) : State :=
  { s with pi := { s.pi with port := .words dir (a + 1), sdo := out } }

/-- The state after an invalid access: the access record is overwritten and ACCESS, bit 5 of CAUSE, is set (R8). -/
def invalid (kind : AccessKind) (a : Addr) (s : State) : State :=
  { s with pi := { s.pi with accessKind := kind, accessAddr := a, cause := s.pi.cause ||| 0x20 } }

/-- STAT's last action and last result replaced (R16). -/
def answered (a : CtrlAction) (r : CtrlResult) (s : State) : State :=
  { s with pi := { s.pi with lastAction := .action a, lastResult := r } }

/-- The word of a CTRL action: its code in the low byte, the parameter above it (R16). -/
def actionWord (code : Nat) (param : CtrlParam) : Word := BitVec.ofNat 32 (param.toNat * 256 + code)

/-- CTRL stores a word (R16). -/
def ctrlStored (v : Word) (s : State) : State := { s with pi := { s.pi with ctrl := v } }

/-- The state at which a CTRL action's own effect begins: the access event is over and CTRL holds the word. -/
def atAction (code : Nat) (param : CtrlParam) (s : State) : State :=
  ctrlStored (actionWord code param) (accessed .write 0x1001 0 s)

/-- The state at which a slot action's own effect begins: the access event is over and the control word holds
the code (R7, R35). -/
def atSlotAction (n : Slot) (code : Word) (s : State) : State :=
  { accessed .write (BitVec.ofNat 16 (0x300 + 16 * n.val)) 0 s with xm := memWrite s.xm (0x300 + 16 * n.val) code }

/-- The command of a CTRL action. -/
def ctrlInstr : CtrlAction → CtrlParam → Instr
  | .modeActive, p => .modeActive p
  | .modeParked, p => .modeParked p
  | .quiesce, p => .quiesce p
  | .configure, p => .configure p
  | .portReset, p => .portReset p
  | .linkReset, p => .linkReset p
  | .clearFaults, p => .clearFaults p
  | .lockLimits, p => .lockLimits p
  | .timeSet, p => .timeSet p
  | .timeNudge, p => .timeNudge p

/-- The one word a command stores in the exchange memory (R4, R6, R7); PORT_RESET and power-on reset clear words
of their own. -/
def storedAt : Instr → Option Nat
  | .hostWriteWord a _ => some a.toNat
  | .commit _ => some 0x21F
  | .post n | .amend n | .retract n | .release n | .slotUnknownAction n _ => some (0x300 + 16 * n.val)
  | .powerOnReset | .badCommand _ | .transactionEnd | .hostReadWord _ | .causeWrite _ | .cmaskWrite _
  | .unknownAction _ | .modeActive _ | .modeParked _ | .quiesce _ | .configure _ | .portReset _ | .linkReset _
  | .clearFaults _ | .lockLimits _ | .timeSet _ | .timeNudge _ | .secondRollover | .clockPageRewriteCompletion
  | .wakeTimeout | .periodExpiry | .passCompletion | .publicationCompletion | .grantTimeout | .lineSample _ _
  | .requestStart | .replyCharacter _ _ _ | .replyWindowExpiry | .gapTimeout | .lineIdle | .errorBound
  | .breakCompletion | .preambleCompletion | .prepareEnd | .meltTimeLimit | .dripEnd | .restoreEnd
  | .suspendTimeLimit | .ssnFall | .resetnRelease | .requestLastStopBitEnd | .startBit => none

/-- The direction and the address of the one word that a host's access carries (R2); no other command is one. -/
def accessOf : Instr → Option (Direction × Addr)
  | .hostReadWord a => some (.read, a)
  | .hostWriteWord a _ => some (.write, a)
  | .commit _ => some (.write, 0x21F)
  | .causeWrite _ => some (.write, 0x1003)
  | .cmaskWrite _ => some (.write, 0x1004)
  | .unknownAction _ | .modeActive _ | .modeParked _ | .quiesce _ | .configure _ | .portReset _ | .linkReset _
  | .clearFaults _ | .lockLimits _ | .timeSet _ | .timeNudge _ => some (.write, 0x1001)
  | .post n | .amend n | .retract n | .release n | .slotUnknownAction n _ =>
    some (.write, BitVec.ofNat 16 (0x300 + 16 * n.val))
  | .powerOnReset | .badCommand _ | .transactionEnd | .secondRollover | .clockPageRewriteCompletion | .wakeTimeout
  | .periodExpiry | .passCompletion | .publicationCompletion | .grantTimeout | .lineSample _ _
  | .requestStart | .replyCharacter _ _ _ | .replyWindowExpiry | .gapTimeout | .lineIdle | .errorBound
  | .breakCompletion | .preambleCompletion | .prepareEnd | .meltTimeLimit | .dripEnd | .restoreEnd
  | .suspendTimeLimit | .ssnFall | .resetnRelease | .requestLastStopBitEnd | .startBit => none

/-- The command ends the exchange in flight with this result: the close of the reply window with NO_REPLY (R95), idle or
the error bound with the reply error found (R97), and the check character of a whole good reply, whose status is 0, with
its payload (R92, R96). -/
def endsExchange (i : Instr) (s : State) (res : ExchangeResult) : Prop :=
  (i = .replyWindowExpiry ∧ s.flc.work = .window ∧ res = .error .noReply) ∨
  ((i = .lineIdle ∨ i = .errorBound) ∧ ∃ k n, s.flc.work = .failed k n ∧ res = .error k) ∨
  (∃ (a len d : Byte) (payload : List Byte), i = .replyCharacter d false true ∧
    (s.flc.work = .char (a :: 0 :: len :: payload) ∨ s.flc.work = .gap (a :: 0 :: len :: payload)) ∧
    payload.length = len.toNat ∧ (len.toNat + (payload.map BitVec.toNat).sum + d.toNat) % 256 = 0 ∧ res = .ok payload)

/-- A sweep begins at the exchange `k`: its first request is due, no actuator has been carried in it, and at the first
exchange the round is a new one (R94, R101, R103). -/
def sweepBegun (k : Nat) (u t : State) : Prop :=
  t = { u with
    flc := { u.flc with
      work := .due
      after := .go
      cursor := k
      fromFirst := decide (k = 0)
      round := if k = 0 then Vector.replicate 30 false else u.flc.round }
    au := { u.au with acts := t.au.acts } } ∧
  ∀ a, t.au.acts.get a = { u.au.acts.get a with carried := none }

/-- A recovery begins: it is counted, and its break begins in a new round (R107). -/
def recovering (u : State) : State :=
  { u with
    flc := { u.flc with
      work := .brk
      after := .go
      cursor := 0
      round := Vector.replicate 30 false
      recoveries := min (u.flc.recoveries + 1) 65535 } }

/-- The link waits between rounds (R101, R109). -/
def linkWaiting (u : State) : State :=
  { u with flc := { u.flc with work := .waiting, after := .go, cursor := 0, round := Vector.replicate 30 false } }

/-- PARKED entry: the timed action is DONE with CTRL_DONE, bit 8, raised and BUSY clear; the link and the lock are OFF,
the period timer is stopped, and every channel with a value is FAILED (R25, R27, R101, R109, R113, R124, R125). -/
def parkedFrom (a : CtrlAction) (c : Cfg) (u t : State) : Prop :=
  t = { u with
    pi := { u.pi with busy := false, lastAction := .action a, lastResult := .done, cause := u.pi.cause ||| 0x100 }
    mc := { u.mc with state := .parked }
    flc := { u.flc with
      work := .off
      after := .go
      cursor := 0
      fromFirst := false
      round := Vector.replicate 30 false }
    mu := { u.mu with channels := t.mu.channels }
    be := { u.be with timer := none, lock := .off } } ∧
  ∀ k, let q := u.mu.channels.get k
    (q.value = none → t.mu.channels.get k = q) ∧
    (q.value ≠ none → t.mu.channels.get k = { q with age := c.holdLimit + 1 } ∧
      channelState c.holdLimit (t.mu.channels.get k) = .failed)

/-- ACTIVE entry, from the state `u` at the completion of the sweep of STARTING, under a configuration (R22, R47, R103,
R107, R115, R116, R124). The action is DONE and CTRL_DONE is raised; the last valid measurements and the degraded flags
follow the measurements, a zone lost anew raising FAULT; a publication begins; the timer, the lock and the first-pass mark
are those of ACTIVE entry; the waiting directives are placed; and the round begins anew, with a recovery after a silent
one. -/
def activeEntered (c : Cfg) (silent : Prop) (u t : State) : Prop :=
  t = { u with
    pi := { u.pi with
      busy := false
      lastAction := .action .modeActive
      lastResult := .done
      cause := t.pi.cause
      divisorCount := 0
      publication := some (reportWords
        { t with flc := { t.flc with work := .waiting, recoveries := u.flc.recoveries } }) }
    mc := { u.mc with state := .active }
    du := t.du
    flc := { u.flc with
      work := t.flc.work
      after := .go
      cursor := 0
      round := Vector.replicate 30 false
      recoveries := t.flc.recoveries }
    mu := { u.mu with lastValid := t.mu.lastValid, degraded := zmk fun z => (measurement u z).isNone }
    be := { u.be with timer := some 0, lock := if c.lockEnable then .locked else .off }
    pu := { u.pu with firstPass := true } } ∧
  (∀ z, zget t.mu.lastValid z = match measurement u z with | some m => some m | none => zget u.mu.lastValid z) ∧
  (let lost := ∃ z, measurement u z = none ∧ zget u.mu.degraded z = false
  (lost → t.pi.cause = u.pi.cause ||| 0x108) ∧ (¬ lost → t.pi.cause = u.pi.cause ||| 0x100)) ∧
  (silent → t.flc.work = .brk ∧ t.flc.recoveries = min (u.flc.recoveries + 1) 65535) ∧
  (¬ silent → t.flc.work = .waiting ∧ t.flc.recoveries = u.flc.recoveries) ∧
  ((∀ z, stackOf u z = []) → (∀ z, (waitOf u z).Nodup) →
    (∀ y z i, i ∈ waitOf u y → i ∈ waitOf u z → y = z) →
    (∀ i, (slotRec u i).state = .waiting ↔ ∃ z, i ∈ waitOf u z) →
    ∀ z,
      waitOf t z = (waitOf u z).drop 4 ∧ (∀ i, i ∈ stackOf t z ↔ i ∈ (waitOf u z).take 4) ∧
      ((stackOf t z).Pairwise fun i j =>
        slotRank u i < slotRank u j ∨ (slotRank u i = slotRank u j ∧ [j, i].Sublist (waitOf u z))) ∧
      (∀ i ∈ (waitOf u z).take 4, slotRec t i = placedRecord (slotRec u i)) ∧
      (∀ i ∈ (waitOf u z).drop 4, slotRec t i = { slotRec u i with reason := some .stackFull })) ∧
  (∀ i, (∀ z, i ∉ waitOf u z) → (slotRec u i).state ≠ .waiting → slotRec t i = slotRec u i)

/-- A period expiry in ACTIVE, from `s` to `t`, that leaves this lock state (R104, R105, R111, R114 to R116, R124 to R126,
R164 to R173, R180). The timer restarts; the channels age, the valid measurements are kept and the degraded flags set; a
MELT whose evaporator test then holds ends; the protection of every zone is evaluated, with ADVISORY and FAULT; every zone
is composed and its state formed; the pass computed from what then stands is in flight; and a sweep, break or preamble in
flight is an overrun, the sweep cut. DEDUCED (notes/assumptions/31.md): every such expiry counts one overrun, and a sweep
between two exchanges ends at once. -/
def passStarted (c : Cfg) (lock : LockState) (s t : State) : Prop :=
  t = { s with
    pi := { s.pi with cause := t.pi.cause }
    flc := { s.flc with work := t.flc.work, after := t.flc.after }
    mu := { s.mu with
      channels := t.mu.channels
      lastValid := t.mu.lastValid
      degraded := zmk fun z => (measurement t z).isNone }
    be := { s.be with
      timer := some 0
      lock := lock
      comp := zmk (composeZone t)
      inFlight := some (computePass t c)
      overruns :=
        if s.flc.work = .waiting ∨ s.flc.work = .off then s.be.overruns else min (s.be.overruns + 1) 65535 }
    pu := t.pu
    dc := { s.dc with run := t.dc.run } } ∧
  (s.flc.work = .waiting ∨ s.flc.work = .off → t.flc = s.flc) ∧
  (s.flc.work = .due → t.flc.work = .waiting ∧ t.flc.after = .go) ∧
  (exchangeInFlight s.flc.work = true → t.flc.work = s.flc.work ∧
    t.flc.after = if s.flc.after = .go ∨ s.flc.after = .cutResume then .cut else s.flc.after) ∧
  (s.flc.work = .brk ∨ s.flc.work = .preamble → t.flc.work = s.flc.work ∧ t.flc.after = s.flc.after) ∧
  (∀ k, t.mu.channels.get k =
    { s.mu.channels.get k with
      age :=
        if (c.channels.get k).enable = true ∧ (s.mu.channels.get k).value ≠ none then
          min ((s.mu.channels.get k).age + 1) (c.holdLimit + 1)
        else (s.mu.channels.get k).age }) ∧
  (∀ z, zget t.mu.lastValid z =
    match measurement t z with
    | some m => some m
    | none => zget s.mu.lastValid z) ∧
  t.dc.run = (if s.dc.run.state = .melt ∧ evaporatorClear t = true then
      { s.dc.run with state := .drip, phaseTimer := 0 } else s.dc.run) ∧
  t.pu.firstPass = false ∧
  (∀ z, let q := zget t.pu.zones z
    q = { evaluateZone s.pu.firstPass (zget c.zones z).fbPower (measurement t z) (zget s.pu.zones z) with
      state :=
        if (measurement t z).isNone then .degraded
        else if q.hard then .hard
        else if q.high || q.low then .protect
        else if (zget t.be.comp z).top ≠ none then .normal
        else .idle } ∧
    (∀ m l, measurement t z = some m → (zget s.pu.zones z).limits = some l →
      q.high = judgeHigh l m (zget s.pu.zones z).high ∧ q.low = judgeLow l m (zget s.pu.zones z).low ∧
        q.hard = judgeHard l m (zget s.pu.zones z).hard)) ∧
  t.pu.chargeA = evaluateCharge s.pu.firstPass (zget c.zones .packA).fbCharge (measurement t .packA)
    (zget s.pu.zones .packA) s.pu.chargeA ∧
  t.pu.chargeB = evaluateCharge s.pu.firstPass (zget c.zones .packB).fbCharge (measurement t .packB)
    (zget s.pu.zones .packB) s.pu.chargeB ∧
  (causeIsSet t .advisory = true ↔ causeIsSet s .advisory = true ∨
    (∃ z, (zget t.pu.zones z).power.published ≠ (zget s.pu.zones z).power.published) ∨
    t.pu.chargeA.published ≠ s.pu.chargeA.published ∨ t.pu.chargeB.published ≠ s.pu.chargeB.published) ∧
  (causeIsSet t .fault = true ↔ causeIsSet s .fault = true ∨
    ∃ z, (measurement t z = none ∧ zget s.mu.degraded z = false) ∨
      ((zget s.pu.zones z).hard = false ∧ (zget t.pu.zones z).hard = true)) ∧
  ∀ f, f ≠ .advisory → f ≠ .fault → causeIsSet t f = causeIsSet s f

/-- A slot's record replaced. -/
def slotChanged (n : Slot) (r : SlotRec) (s : State) : State :=
  { s with du := { s.du with slots := vset s.du.slots n r } }

/-! ## The terms of a directive's start and end -/

/-- The start of a PENDING directive with these values in use is met at an evaluation (R81 to R88): NOW; AT, from its
stamp on; DAILY, within the catch window (0 is taken as 1, R89) on a named day on which it has not fired; AFTER, at the
minute event that its count completes; ON_LINE, while the line is asserted; a REACH, from its lead before the deadline
on, a lead formed anew at a minute event. While the clock is not SET no calendar time is reached (R81). -/
def startComes (minute : Bool) (s : State) (firedOn : Option Nat) (w : Working) : Prop :=
  let now := s.cc.time / 60
  let today := s.cc.time / 86400
  let window := match s.mc.config with
    | some c => if c.catchWindow = 0 then 1 else c.catchWindow
    | none => 1
  match w.kind with
  | .reach => s.cc.set = true ∧ w.deadline ≤ now + (if minute then leadTime s w.zone w.target else w.lead)
  | .setpoint | .procedure =>
    match w.start with
    | .now => True
    | .at stamp => s.cc.set = true ∧ stamp ≤ now
    | .daily hm days =>
      s.cc.set = true ∧ firedOn ≠ some today ∧ days.testBit ((today + 5) % 7) = true ∧ hm ≤ now % 1440 ∧
        now % 1440 < hm + window
    | .after minutes => minute = true ∧ w.afterCount + 1 = minutes
    | .onLine l => accepted s l = true

/-- The AT end of a SETPOINT, or the deadline and hold-after of a REACH, has been reached (R49, R53, R81). -/
def endHasCome (s : State) (w : Working) : Prop :=
  s.cc.set = true ∧
    ((w.kind = .setpoint ∧ ∃ stamp, w.ending = .at stamp ∧ stamp ≤ s.cc.time / 60) ∨
      (w.kind = .reach ∧ w.deadline + w.holdAfter ≤ s.cc.time / 60))

/-- The end of a due SETPOINT or REACH is reached at an evaluation (R49, R50, R53): its AT end or its hold-after's, or a
DURATION that the minute event completes. -/
def endComes (minute : Bool) (s : State) (w : Working) : Prop :=
  endHasCome s w ∨ (minute = true ∧ w.kind = .setpoint ∧ w.ending = .duration (w.durationCount + 1))

/-- A due directive whose end comes at an evaluation leaves no start behind that is met at the same one: a DAILY SETPOINT
returns to PENDING with the date of its due stamp as fired-on (R55, R83). -/
def staysEnded (minute : Bool) (s : State) (r : SlotRec) (w : Working) : Prop :=
  ∀ hm days, w.kind = .setpoint → w.start = .daily hm days → ¬ startComes minute s (r.due.map (· / 1440)) w

/-- An evaluation makes no directive of a zone due: no start is met, and no DAILY run that ends leaves one. -/
def noneBecomesDue (minute : Bool) (s : State) (z : Zone) : Prop :=
  ∀ m q, (slotRec s m).work = some q → q.kind ≠ .procedure → q.zone = z →
    ((slotRec s m).state = .pending → ¬ startComes minute s (slotRec s m).firedOn q) ∧
      ((slotRec s m).state = .waiting ∨ (slotRec s m).state = .active → staysEnded minute s (slotRec s m) q)

/-- A measurement is valid and lies inside a directive's own band (R51). -/
def liesInOwnBand (w : Working) (measured : Option Int) : Prop :=
  ∃ m, measured = some m ∧
    match w.combine with
    | .replace | .blend => w.target - w.halfBand ≤ m ∧ m ≤ w.target + w.halfBand
    | .floor => w.target ≤ m
    | .ceiling => m ≤ w.target

/-- The SETTLED end of an ACTIVE SETPOINT is reached at the completion of a pass (R51). -/
def settles (r : PassResult) (w : Working) : Prop :=
  let inside := liesInOwnBand w (zget r.zones w.zone).meas
  w.kind = .setpoint ∧ ∃ k, w.ending = .settled k ∧ ((inside ∧ w.settledCount + 1 = k) ∨ (¬ inside ∧ k = 0))

/-- Of the directives of slot `n`'s zone, and of whatever stands in that zone's stack and wait list, the evaluation starts
`n`'s alone and ends none. -/
def startsAlone (minute : Bool) (s : State) (n : Slot) (w : Working) : Prop :=
  ∀ m q, m ≠ n → (slotRec s m).work = some q →
    m ∈ stackOf s w.zone ∨ m ∈ waitOf s w.zone ∨ (q.zone = w.zone ∧ q.kind ≠ .procedure) →
    ((slotRec s m).state = .pending → ¬ startComes minute s (slotRec s m).firedOn q) ∧
      ((slotRec s m).state = .waiting ∨ (slotRec s m).state = .active → ¬ endComes minute s q)

/-- The met item after the evaluation made within a POST (R52): a REACH whose deadline has come is MET exactly where
its zone's measurement is valid and lies within the half-band of the target; before the deadline, and for any other
kind, it is NOT_YET. -/
def metAtPost (s : State) (w : Working) : Met :=
  if w.kind = .reach ∧ s.cc.set = true ∧ w.deadline ≤ s.cc.time / 60 then
    match measurement s w.zone with
    | some m => if w.target - w.halfBand ≤ m ∧ m ≤ w.target + w.halfBand then .met else .notMet
    | none => .notMet
  else .notYet

/-- The record of a slot whose POST is taken, before its start is evaluated (R37): every status item at its "0" value
but the state, PENDING, and the result, DONE; the working record made. -/
def posted (w : Working) : SlotRec := { SlotRec.empty with state := .pending, result := .done, work := some w }

/-- The changes of device state that a command may bring (R19, R20, R23, R26, R29, R30). The link's events and the
period timer's complete a sweep: from STARTING to ACTIVE, and from PARKING and QUIESCING to PARKED. -/
def mayMove (c : Instr) (before after : DeviceState) : Prop :=
  match c with
  | .powerOnReset | .portReset _ => after = .unconfigured
  | .configure _ => before = .unconfigured ∧ after = .parked
  | .modeActive _ => (before = .parked ∨ before = .parking) ∧ after = .starting
  | .modeParked _ => (before = .active ∨ before = .starting) ∧ after = .parking
  | .quiesce _ =>
    (before = .starting ∨ before = .active ∨ before = .parking) ∧ (after = .quiescing ∨ after = .parked)
  | .replyCharacter _ _ _ | .replyWindowExpiry | .lineIdle | .errorBound | .preambleCompletion | .periodExpiry
  | .passCompletion =>
    (before = .starting ∧ after = .active) ∨ ((before = .parking ∨ before = .quiescing) ∧ after = .parked)
  | .badCommand _ | .transactionEnd | .hostReadWord _ | .hostWriteWord _ _ | .commit _ | .causeWrite _
  | .cmaskWrite _ | .unknownAction _ | .linkReset _ | .clearFaults _ | .lockLimits _ | .timeSet _ | .timeNudge _
  | .post _ | .amend _ | .retract _ | .release _ | .slotUnknownAction _ _ | .secondRollover
  | .clockPageRewriteCompletion | .wakeTimeout | .publicationCompletion | .grantTimeout | .lineSample _ _
  | .requestStart | .gapTimeout | .breakCompletion | .prepareEnd | .meltTimeLimit | .dripEnd | .restoreEnd
  | .suspendTimeLimit | .ssnFall | .resetnRelease | .requestLastStopBitEnd | .startBit => False

end Sys2Proof.Machine
end

