-- ==== Sys2Proof/Certificates/Slice0/Obligations.lean ====
section
/-! DEFINITION. The statements about the TB426, for the provers. Each docstring names the rules of spec/ it
formalises. -/

open Sys2Proof Sys2Proof.Machine

/-! ## Steps and commands -/

/-- A step takes the command at the front of the queue and runs it on the state with the queue's rest. -/
def Obligations.StepRunsTheFrontCommand : Prop :=
  ∀ (c : Instr) (rest : List Instr) (s : State), s.pending = c :: rest →
    step s = exec c { s with pending := rest }

/-- The model's choice (notes/assumptions/2.md): on an empty queue a step is one millisecond. Every running timer
advances by it and nothing else changes. The second rollover, the wake timeout, the grant timeout, the expiry of the
defrost phase in progress and the period expiry join the queue, in that order (3), each exactly when its time has
reached its limit (R32, R75, R122, R124, R125, R179, R180, R185, R187), and nothing else joins it. -/
def Obligations.IdleStepIsOneMillisecond : Prop :=
  ∀ s : State, s.pending = [] → ∃ t, step s = .next t ∧
    t = { s with
      pending := t.pending
      mc := { s.mc with wakeTimer := s.mc.wakeTimer.map (· - 1) }
      cc := { s.cc with divider := s.cc.divider + 32768 }
      mu := { s.mu with commitAge := s.mu.commitAge.map (· + 1) }
      be := { s.be with timer := s.be.timer.map (· + 1) }
      dc := { s.dc with
        run := { s.dc.run with
          phaseTimer :=
            if s.dc.run.state = .idle ∨ s.dc.run.state = .suspended then s.dc.run.phaseTimer
            else s.dc.run.phaseTimer + 1
          meltTime := if s.dc.run.state = .melt then s.dc.run.meltTime + 1 else s.dc.run.meltTime
          suspendedTime :=
            if s.dc.run.state = .suspended then s.dc.run.suspendedTime + 1 else s.dc.run.suspendedTime } } } ∧
    t.pending.Sublist [.secondRollover, .wakeTimeout, .grantTimeout, .prepareEnd, .meltTimeLimit, .dripEnd, .restoreEnd,
      .suspendTimeLimit, .periodExpiry] ∧
    (Instr.secondRollover ∈ t.pending ↔ 32768000 ≤ t.cc.divider) ∧
    (Instr.wakeTimeout ∈ t.pending ↔ t.mc.wakeTimer = some 0) ∧
    (Instr.grantTimeout ∈ t.pending ↔
      ∃ c e, s.mc.config = some c ∧ s.mu.copy.current = true ∧ t.mu.commitAge = some e ∧ c.grantTimeout * 1000 ≤ e) ∧
    (let r := t.dc.run
    let due := fun (phase : RunState) (time : Nat) (limit : Plant → Nat) =>
      ∃ c, s.mc.config = some c ∧ r.state = phase ∧ limit c.plant ≤ time
    (Instr.prepareEnd ∈ t.pending ↔ due .prepare r.phaseTimer fun p => p.prepareTime * 1000) ∧
      (Instr.meltTimeLimit ∈ t.pending ↔ due .melt r.meltTime fun p => p.meltMax * 1000) ∧
      (Instr.dripEnd ∈ t.pending ↔ due .drip r.phaseTimer fun p => p.dripTime * 1000) ∧
      (Instr.restoreEnd ∈ t.pending ↔ due .restore r.phaseTimer fun p => p.restoreTime * 1000) ∧
      (Instr.suspendTimeLimit ∈ t.pending ↔ due .suspended r.suspendedTime fun p => p.suspendMax * 60000)) ∧
    (Instr.periodExpiry ∈ t.pending ↔
      let period := (s.mc.config.map Cfg.period).getD 0
      ∃ e, t.be.timer = some e ∧
        (if s.mc.state = .active ∧ s.be.lock = .locked then 3 * period / 2 else period) ≤ e)

/-- No command stops the part: every one of the 49 is answered with a next state. The model's choice: the queue of that
state is the queue before, a power-on reset's included, since the commands that wait are the one sender's
(notes/assumptions/45.md, notes/assumptions/47.md); and a command that cannot occur in the present state is answered
too, with the state as it is (notes/assumptions/8.md). -/
def Obligations.EveryCommandCompletes : Prop :=
  ∀ (c : Instr) (s : State), ∃ t, exec c s = .next t ∧ t.pending = s.pending

/-! ## Invariants that every step keeps -/

/-- The host-written words keep their canonical form. -/
def Obligations.StepKeepsTheMemoryCanonical : Prop :=
  ∀ s t : State, memoryCanonical s → step s = .next t → memoryCanonical t

/-- BUSY is set exactly in the moving states (R16), the lock state is OFF in UNCONFIGURED and PARKED (R125), the link
is off exactly there (R102, R109), and every other state than UNCONFIGURED has a committed configuration (R19):
together they are kept by every step. -/
def Obligations.StepKeepsTheModesConsistent : Prop :=
  ∀ s t : State,
    busyMatchesState s ∧ lockOffAtRest s ∧ linkMatchesState s ∧ configuredUnlessReset s →
    step s = .next t →
    busyMatchesState t ∧ lockOffAtRest t ∧ linkMatchesState t ∧ configuredUnlessReset t

/-- No stack grows past four entries (R45, R59), no tracking count past 3 (R158), and neither the overrun count nor the
recovery count past 65,535 (R107, R128). The Directive Unit's lists stay as chapter 3 has them: no stack and no wait
list has repeats, and no slot stands in two of them; a stack holds exactly its zone's ACTIVE directives of kind
SETPOINT and REACH, by class from the top (R45, R59), and a wait list exactly its zone's WAITING ones, by class, due
stamp and slot number (R47); in ACTIVE a directive waits only while its zone's stack is full, and in every other device
state the stacks are empty (3.5, R59); a slot has a working record exactly while it is PENDING, WAITING or ACTIVE (R34,
R54); and an ACTIVE PROCEDURE is the one whose run is in progress (R56, R57). The model's choice: the record is
discarded at the end, and not kept until the slot is EMPTY (notes/assumptions/58.md). -/
def Obligations.StepKeepsTheListsAndCapacities : Prop :=
  (∀ s t : State, stacksBounded s ∧ trackingBounded s ∧ countsBounded s → step s = .next t →
    stacksBounded t ∧ trackingBounded t ∧ countsBounded t) ∧
  ∀ s t : State, directiveLists s → step s = .next t → directiveLists t

/-- The committed configuration has passed check 1 (R28); the limits in force and the locked values keep the orderings
of R163 (tmin ≤ tmax, low_protect < soft_hi < hard_hi, and a pack's cold_zero < cold_full) with a hysteresis of at
least 0, and the hard state is held only with high protect (R167); every command of an enabled actuator lies within its
[min, max] (R155); and the frost lies in 0..frost_limit (R146). -/
def Obligations.StepKeepsLimitsAndCommandsInRange : Prop :=
  ∀ s t : State,
    configInRange s ∧ limitsOrdered s ∧ hardOnlyWithHigh s ∧ commandsInRange s ∧ frostInRange s →
    step s = .next t →
    configInRange t ∧ limitsOrdered t ∧ hardOnlyWithHigh t ∧ commandsInRange t ∧ frostInRange t

/-- The state after reset meets every invariant above. -/
def Obligations.ResetMeetsEveryInvariant : Prop :=
  memoryCanonical State.reset ∧ busyMatchesState State.reset ∧ lockOffAtRest State.reset ∧
  linkMatchesState State.reset ∧ configuredUnlessReset State.reset ∧ stacksBounded State.reset ∧
  trackingBounded State.reset ∧ countsBounded State.reset ∧ configInRange State.reset ∧
  limitsOrdered State.reset ∧ hardOnlyWithHigh State.reset ∧ commandsInRange State.reset ∧ frostInRange State.reset ∧
  directiveLists State.reset

/-- R176: whatever the command, short of a power-on reset, a locked zone keeps its locked values and, once they equal
them, its limits in force. A CONFIGURE whose limits for a locked zone differ in any field is refused with
LOCKED_LIMITS, unless an earlier check has refused it, and changes nothing else; one that passes puts limits in force
that equal the locked values. PORT_RESET keeps a locked zone's limits in force as its locked values and discards those
of an unlocked zone. A power-on reset unlocks every zone and holds no locked value. -/
def Obligations.LockedLimitsAreHeldUntilPowerOn : Prop :=
  (∀ (c : Instr) (s t : State) (z : Zone) (l : Limits), c ≠ .powerOnReset → exec c s = .next t →
    (zget s.pu.zones z).locked = some l →
    (zget t.pu.zones z).locked = some l ∧
    ((zget s.pu.zones z).limits = some l → (zget t.pu.zones z).limits = some l)) ∧
  (∀ (p : CtrlParam) (s : State) (z : Zone) (l : Limits), ctrlTakes s → s.pi.busy = false →
    s.mc.state = .unconfigured ∨ s.mc.state = .parked → (zget s.pu.zones z).locked = some l →
    let c := cfgOfArea s.xm
    ((zget c.zones z).limits ≠ l → ∃ code,
      exec (.configure p) s = .next (answered .configure code (atAction 3 p s)) ∧
      (code = .lockedLimits ∨ checkRanges c = false ∨ checkAddresses c = false ∨ checkReferences c = false)) ∧
    (checkRanges c = true → checkAddresses c = true → checkReferences c = true → checkLocks s.pu c = true →
      ∃ t, exec (.configure p) s = .next t ∧ (zget t.pu.zones z).limits = some (zget c.zones z).limits ∧
        (zget c.zones z).limits = l)) ∧
  (∀ (p : CtrlParam) (s : State), ctrlTakes s → ∃ t, exec (.portReset p) s = .next t ∧
    ∀ z, (zget t.pu.zones z).limits = (zget s.pu.zones z).locked) ∧
  (∀ s : State, ∃ t, exec .powerOnReset s = .next t ∧
    ∀ z, (zget t.pu.zones z).locked = none ∧ (zget t.pu.zones z).limits = none)

/-- R19: a well-formed command changes the device state only as the mode table says, and the committed configuration
changes at CONFIGURE, PORT_RESET and power-on reset alone (R5, R29, R30). -/
def Obligations.DeviceStateChangesOnlyAtItsEvents : Prop :=
  ∀ (c : Instr) (s t : State), c.wf = true → exec c s = .next t →
    (t.mc.state = s.mc.state ∨ mayMove c s.mc.state t.mc.state) ∧
    (t.mc.config = s.mc.config ∨ c = .powerOnReset ∨ (∃ p, c = .portReset p) ∨ (∃ p, c = .configure p))

/-- A well-formed command other than PORT_RESET and power-on reset leaves every host-written word as it was but the one
word it names; PORT_RESET clears the control words of the slots and leaves the other words (R4, R6, R7, R30, R58). -/
def Obligations.OnlyTheNamedWordIsStored : Prop :=
  (∀ (c : Instr) (s t : State) (a : Nat), c.wf = true → c ≠ .powerOnReset → (∀ p, c ≠ .portReset p) →
    exec c s = .next t → storedAt c ≠ some a → memRead t.xm a = memRead s.xm a) ∧
  (∀ (p : CtrlParam) (s t : State), ctrlTakes s → exec (.portReset p) s = .next t →
    ∀ a : Nat,
      ((∃ n : Slot, a = 0x300 + 16 * n.val) → memRead t.xm a = 0) ∧
      ((∀ n : Slot, a ≠ 0x300 + 16 * n.val) → memRead t.xm a = memRead s.xm a))

/-- A flag that is set in CAUSE stays set whatever happens, but for the host's CAUSE write, PORT_RESET and power-on
reset (R17). -/
def Obligations.CauseFlagsStaySet : Prop :=
  ∀ (c : Instr) (s t : State) (f : CauseFlag), c.wf = true → c ≠ .powerOnReset → (∀ p, c ≠ .portReset p) →
    (∀ v, c ≠ .causeWrite v) → exec c s = .next t → causeIsSet s f = true → causeIsSet t f = true

/-! ## The reset pin and the port (chapter 1) -/

/-- Power-on reset (R19 and the reset values of every chapter) leaves the power-on values of every block: the
registers, STAT's last action and result and the access record; the configuration and the wake line; every slot, stack
and wait list; the clock; the node records, the cursor and the round; the channels, the filters and the vehicle copy;
the integrals, the compositions and the results; the actuators with their path flags; the locks, states and allowances;
and the run and last-run records. RESETn's release changes nothing else. The model's choices: the commands that wait
are kept (notes/assumptions/45.md), RESETn is still asserted after the reset (1), the values of the port's phase, SDO,
the carried record, the fromFirst fact and the empty forms are the model's (48), and so is the aim case LOAD (43). -/
def Obligations.PowerOnResetGivesEveryBlockItsResetValues : Prop :=
  (∀ s : State, ∃ t, exec .powerOnReset s = .next t ∧ t.resetHeld = true ∧ t.pending = s.pending ∧
    (∀ a, memRead t.xm a = 0) ∧
    t.mc.state = .unconfigured ∧ t.mc.config = none ∧ t.mc.wake = false ∧ t.mc.wakeTimer = none ∧
    (t.pi.port = .waiting ∧ t.pi.sdo = 0 ∧ t.pi.cause = 0 ∧ t.pi.cmask = 0 ∧ t.pi.ctrl = 0 ∧ t.pi.busy = false ∧
      t.pi.lastAction = .none ∧ t.pi.lastResult = .none ∧ t.pi.accessKind = .none ∧ t.pi.accessAddr = 0 ∧
      t.pi.divisorCount = 0 ∧ t.pi.publication = none ∧ ∀ k, t.pi.report.getD k 0 = 0) ∧
    (∀ n, slotRec t n = SlotRec.empty) ∧ (∀ z, stackOf t z = [] ∧ waitOf t z = []) ∧
    (t.cc.time = 0 ∧ t.cc.divider = 0 ∧ t.cc.set = false ∧ t.cc.minuteEvents = 0 ∧ t.cc.rewrite = none ∧
      t.cc.rewriteDue = false ∧ ∀ k, t.cc.page.getD k 0 = 0) ∧
    ((∀ e, t.flc.nodes.get e = ⟨.unknown, 0, 0, none⟩) ∧ t.flc.work = .off ∧ t.flc.after = .go ∧ t.flc.cursor = 0 ∧
      t.flc.fromFirst = false ∧ (∀ e, t.flc.round.get e = false) ∧ t.flc.recoveries = 0) ∧
    ((∀ k, t.mu.channels.get k = ⟨none, 0, false, .unknown⟩) ∧ (∀ z, zget t.mu.lastValid z = none) ∧
      (∀ z, zget t.mu.degraded z = false) ∧ (∀ l, lget t.mu.filters l = ⟨false, 0⟩) ∧
      t.mu.copy = ⟨0, ⟨0, 0, 0, 0, 0⟩, false⟩ ∧ t.mu.commitAge = none) ∧
    (t.be.timer = none ∧ t.be.lock = .off ∧ (∀ z, zget t.be.integral z = 0) ∧
      (∀ z, zget t.be.prev z = ⟨0, false⟩) ∧ (∀ z, zget t.be.comp z = ⟨none, none, none, 0, none, []⟩) ∧
      (∀ z, zget t.be.results z = ⟨none, some 0, 0, 0, 0, 0, 0, 0, 0, 0, false⟩) ∧
      t.be.totals = ⟨0, 0, 0, 0, 0, 0, 0, 0, 0, 0, 0, 0, false, false, false, false, false, 0⟩ ∧
      t.be.inFlight = none ∧ t.be.frost = 0 ∧ t.be.passCount = 0 ∧ t.be.overruns = 0) ∧
    ((∀ a, t.au.acts.get a = ⟨none, none, 0, none, .unknown, .load, none⟩) ∧
      ∀ z, zget t.au.paths z = ⟨false, false, false, false, false, false⟩) ∧
    ((∀ z, zget t.pu.zones z = ⟨none, none, false, false, false, .idle, ⟨0, 0⟩⟩) ∧ t.pu.chargeA = ⟨0, 0⟩ ∧
      t.pu.chargeB = ⟨0, 0⟩ ∧ t.pu.firstPass = false) ∧
    t.dc.run = ⟨.idle, none, false, none, 0, 0, 0, 0, false, 0, none⟩ ∧ t.dc.last = none) ∧
  (∀ s : State, exec .resetnRelease s = .next { s with resetHeld := false })

/-- R1, R2, R118: while RESETn is asserted, outside a transaction and in a void one, the host's bytes and words do
nothing; nor does a word in the other direction than the transaction's, or at another address than its next one. The
word that a transaction has next is taken: the address one higher, 0x0000 after 0xFFFF, is then the next. In a READ SDO
sends the word's bits, least significant byte first and in each byte most significant bit first, and is 0 from the 32nd
on; it is 0 in a WRITE, in the command byte and the address, and in a void transaction. While RESETn is asserted, SSn's
fall begins nothing and the lines are not sampled. The fall of SSn begins a transaction at a port that waits for it,
its rise ends one, and a command byte that is neither 0x3C (READ) nor 0xC3 (WRITE) makes the transaction it begins void
and is recorded as BAD_COMMAND at address 0; in any other phase no command byte is due, and there is none. The model's
choices: the first access event of a transaction stands for its command byte and address (notes/assumptions/5.md), SDO
is 0 between transactions too (6), the rise of SSn is taken while RESETn is asserted too (46), and a fall at a port
that does not wait for one does nothing (8). -/
def Obligations.TransactionsAreFramedBySsn : Prop :=
  ((∀ (c : Instr) (d : Direction) (a : Addr) (s : State), accessOf c = some (d, a) →
     (s.resetHeld = true ∨ s.pi.port = .waiting ∨ s.pi.port = .void → exec c s = .next s) ∧
     (∀ e b, s.pi.port = .words e b → e ≠ d ∨ b ≠ a → exec c s = .next s) ∧
     (portTakes d a s →
       ∃ t, exec c s = .next t ∧ t.pi.port = .words d (if a = 0xFFFF then 0 else a + 1) ∧
         (d = .write → t.pi.sdo = 0))) ∧
   (∀ s : State, s.resetHeld = true → exec .ssnFall s = .next s) ∧
   (∀ (l : Line) (b : Bool) (s : State), s.resetHeld = true → exec (.lineSample l b) s = .next s)) ∧
  ((∀ s : State, s.resetHeld = false → s.pi.port = .waiting →
     exec .ssnFall s = .next { s with pi := { s.pi with port := .command, sdo := 0 } }) ∧
   (∀ s : State, s.pi.port ≠ .waiting → exec .ssnFall s = .next s) ∧
   (∀ s : State, exec .transactionEnd s = .next { s with pi := { s.pi with port := .waiting, sdo := 0 } }) ∧
   (∀ (b : Byte) (s : State), s.resetHeld = false → s.pi.port = .command → b ≠ 0x3C → b ≠ 0xC3 →
     exec (.badCommand b) s = .next (invalid .badCommand 0 { s with pi := { s.pi with port := .void, sdo := 0 } })) ∧
   (∀ (b : Byte) (s : State), s.resetHeld = true ∨ s.pi.port ≠ .command → exec (.badCommand b) s = .next s)) ∧
  (∀ (s : State) (k : Nat),
    (∀ a, s.pi.port = .words .read a →
      (∀ byte bit, byte < 4 → bit < 8 → sdoAt s (8 * byte + (7 - bit)) = s.pi.sdo.getLsbD (8 * byte + bit)) ∧
        (32 ≤ k → sdoAt s k = false)) ∧
    ((∀ a, s.pi.port ≠ .words .read a) → sdoAt s k = false))

/-- R2, R4, R7, R9, R15 to R18, R34: a read of a host-written word (the configuration area, the vehicle page, the
clock-set block, words 0 to 11 of a slot) and of ID, CTRL, CAUSE and CMASK returns the word; a read of the summary
words 0x500, 0x501 and 0x502 a word whose bit n is 1 exactly while slot n is ENDED, ACTIVE or WAITING; a read of STAT
its mode, clock-set flag, last action, last result and access record; and a read of a slot's words 12 to 15 its status
items: each in the field, and with the code, of the layouts (13.2, 13.5), every other bit 0. Reading changes nothing
else. -/
def Obligations.HostReadsReturnTheStoredWord : Prop :=
  (∀ (a : Addr) (s : State), portTakes .read a s →
     (a.toNat < 0x230 ∨ (∃ (n : Slot) (k : Nat), k < 12 ∧ a.toNat = 0x300 + 16 * n.val + k) →
       exec (.hostReadWord a) s = .next (accessed .read a (memRead s.xm a.toNat) s)) ∧
     (a = 0x1000 → exec (.hostReadWord a) s = .next (accessed .read a 0x0D742601 s)) ∧
     (a = 0x1001 → exec (.hostReadWord a) s = .next (accessed .read a s.pi.ctrl s)) ∧
     (a = 0x1003 → exec (.hostReadWord a) s = .next (accessed .read a (s.pi.cause.setWidth 32) s)) ∧
     (a = 0x1004 → exec (.hostReadWord a) s = .next (accessed .read a (s.pi.cmask.setWidth 32) s))) ∧
  (∀ (s : State) (a : Addr) (st : SlotState), portTakes .read a s →
     (a = 0x500 ∧ st = .ended) ∨ (a = 0x501 ∧ st = .active) ∨ (a = 0x502 ∧ st = .waiting) →
     ∃ w : Word, exec (.hostReadWord a) s = .next (accessed .read a w s) ∧
       (∀ n : Slot, w.getLsbD n.val = decide ((slotRec s n).state = st)) ∧
       ∀ i, 24 ≤ i → w.getLsbD i = false) ∧
  (∀ s : State, portTakes .read 0x1002 s →
     ∃ w : Word, exec (.hostReadWord 0x1002) s = .next (accessed .read 0x1002 w s) ∧
     w.toNat = modeCode s.mc.state s.be.lock + 0x10 * bit s.cc.set + 0x20 * lastActionCode s.pi.lastAction
       + 0x200 * ctrlResultCode s.pi.lastResult + 0x2000 * accessKindCode s.pi.accessKind
       + 0x10000 * s.pi.accessAddr.toNat) ∧
  (∀ (s : State) (n : Slot),
     let r := slotRec s n
     ∀ (k : Nat) (v : Nat),
       (k, v) ∈
         [(12, slotStateCode r.state + 0x10 * reasonCode r.reason + 0x100 * outcomeCode r.outcome
             + 0x10000 * slotResultCode r.result + 0x1000000 * bit r.placed + 0x4000000 * metCode r.met
             + 0x10000000 * (r.suspendCount % 4)),
          (13, r.due.getD 0 % 0x4000000 + 0x80000000 * bit r.due.isSome),
          (14, r.runCount % 0x10000 + 0x10000 * runOutcomeCode r.lastRun),
          (15, r.firedOn.getD 0 % 0x10000 + 0x80000000 * bit r.firedOn.isSome)] →
       let a : Addr := BitVec.ofNat 16 (0x300 + 16 * n.val + k)
       portTakes .read a s → ∃ w : Word, w.toNat = v ∧ exec (.hostReadWord a) s = .next (accessed .read a w s)) ∧
  ((∀ l, modeCode .unconfigured l = 0 ∧ modeCode .parked l = 1) ∧
   [DeviceState.starting, .active, .parking, .quiescing].flatMap
       (fun d => [LockState.off, .locked, .lockLost].map (modeCode d)) = [2, 3, 4, 5, 6, 7, 8, 9, 10, 11, 12, 13] ∧
   [CtrlAction.modeActive, .modeParked, .configure, .quiesce, .portReset, .linkReset, .clearFaults, .lockLimits,
       .timeSet, .timeNudge].map (fun a => lastActionCode (.action a)) = [1, 2, 3, 4, 5, 6, 7, 8, 9, 10] ∧
   lastActionCode .none = 0 ∧ lastActionCode .unknown = 15 ∧
   [CtrlResult.none, .inProgress, .done, .wrongState, .busy, .unknownAction, .badTable, .dupAddress, .badRef,
       .lockedLimits, .badTime].map ctrlResultCode = [0, 1, 2, 3, 4, 5, 6, 7, 8, 9, 10] ∧
   [AccessKind.none, .unmapped, .writeOwned, .writeHeld, .writeFrozen, .readInWindow, .badCommand].map
       accessKindCode = [0, 1, 2, 3, 4, 5, 6]) ∧
  ([SlotState.empty, .pending, .waiting, .active, .ended].map slotStateCode = [0, 1, 2, 3, 4] ∧
   [none, some Reason.stackFull, some .parked].map reasonCode = [0, 1, 2] ∧
   [none, some Outcome.completed, some .expired, some .reached, some .late, some .retracted, some .aborted,
       some .refused, some .quiesced, some .noWake].map outcomeCode = [0, 1, 2, 3, 4, 5, 6, 7, 8, 9] ∧
   [SlotResult.none, .done, .refusedState, .refusedMode, .refusedKind, .unknownAction, .badKind, .badZone, .badClass,
       .badCombine, .badStart, .badEnd, .badStamp, .unsetClock, .past, .busy, .notActive].map slotResultCode =
     [0, 1, 2, 3, 4, 5, 6, 7, 8, 9, 10, 11, 12, 13, 14, 15, 16] ∧
   [Met.notYet, .met, .notMet].map metCode = [0, 1, 2] ∧
   [none, some RunOutcome.completed, some .expired, some .aborted].map runOutcomeCode = [0, 1, 2, 3])

/-- R3, R8: an access to an unmapped address returns 0 on a read, stores nothing on a write, and is recorded as
UNMAPPED. -/
def Obligations.UnmappedAccessesAreRecorded : Prop :=
  ∀ (a : Addr) (s : State),
    (0x230 ≤ a.toNat ∧ a.toNat < 0x300) ∨ (0x480 ≤ a.toNat ∧ a.toNat < 0x500) ∨
      (0x503 ≤ a.toNat ∧ a.toNat < 0x600) ∨ (0x810 ≤ a.toNat ∧ a.toNat < 0x1000) ∨ 0x1005 ≤ a.toNat →
    (portTakes .read a s → exec (.hostReadWord a) s = .next (invalid .unmapped a (accessed .read a 0 s))) ∧
    (portTakes .write a s →
      ∀ v, exec (.hostWriteWord a v) s = .next (invalid .unmapped a (accessed .write a 0 s)))

/-- R13: inside the publish window a read of a report word returns all ones and is recorded; outside it the read
returns the word of the last completed publication; a write is refused WRITE_OWNED either way. -/
def Obligations.ReportReadsAreGuardedByTheWindow : Prop :=
  ∀ (a : Addr) (s : State), 0x600 ≤ a.toNat → a.toNat < 0x800 →
    (portTakes .read a s →
      (s.pi.publication.isSome = true →
        exec (.hostReadWord a) s = .next (invalid .readInWindow a (accessed .read a 0xFFFFFFFF s))) ∧
      (s.pi.publication = none →
        exec (.hostReadWord a) s = .next (accessed .read a (s.pi.report.getD (a.toNat - 0x600) 0) s))) ∧
    (portTakes .write a s →
      ∀ v, exec (.hostWriteWord a v) s = .next (invalid .writeOwned a (accessed .write a 0 s)))

/-- R12, R14, R48, R73, R80, R149, R189: a publication completes with the report area written, the publish count one
more and REPORT (bit 1) raised; a clock page rewrite with the page written and no cause, a further rewrite that is due
beginning at once. A clock page read inside its window returns all ones and is recorded. The words taken at a start,
which the completion then writes, are those of the layouts: the clock page holds the fields of the time, its weekday
(2000-01-01 is a Saturday) and minute stamp, the flag and the minute event count (13.8); the report area, word by word
and field by field, what the blocks hold, signed values in two's complement, absent ones as 0x8000, 0xFFFF, 0x80000000,
slot 31 or byte 0xFF, and 0 in every other word (13.7). The model's choices: with none in flight a completion does
nothing (notes/assumptions/8.md); what was taken at the start appears at the completion (14); the first of four bytes
has the lowest bits (34), the radiated, chilled, pumped and resistive heats are amounts (35), the measurement is the
one that stands (36), an absent last-run record has origin 31 and the time 0 (37), the link shows EXCHANGE while a
request is due and not begun too (29), an absent alpha is shown as 0 (60), and the first path flag has the lowest bit
(61). -/
def Obligations.WindowsCloseAtTheirCompletions : Prop :=
  (∀ (s : State) (ws : List Word), s.pi.publication = some ws →
    exec .publicationCompletion s = .next
      { s with
        pi := { s.pi with
          publication := none
          report := (s.pi.report.headD 0 + 1) :: ws
          cause := s.pi.cause ||| 0x02 } }) ∧
  (∀ s : State, s.pi.publication = none → exec .publicationCompletion s = .next s) ∧
  (∀ (s : State) (ws : List Word), s.cc.rewrite = some ws →
    exec .clockPageRewriteCompletion s = .next
      { s with
        cc := { s.cc with
          page := ws
          rewrite := if s.cc.rewriteDue then some (clockPageWords s.cc) else none
          rewriteDue := false } }) ∧
  (∀ s : State, s.cc.rewrite = none → exec .clockPageRewriteCompletion s = .next s) ∧
  (∀ (a : Addr) (s : State), portTakes .read a s → 0x800 ≤ a.toNat → a.toNat < 0x810 →
    (s.cc.rewrite.isSome = true →
      exec (.hostReadWord a) s = .next (invalid .readInWindow a (accessed .read a 0xFFFFFFFF s))) ∧
    (s.cc.rewrite = none →
      exec (.hostReadWord a) s = .next (accessed .read a (s.cc.page.getD (a.toNat - 0x800) 0) s))) ∧
  (∀ c : CC, c.time < 3155760000 →
    ∃ y mo d h mi se : Nat,
      (2000 ≤ y ∧ y ≤ 2099 ∧ 1 ≤ mo ∧ mo ≤ 12 ∧ 1 ≤ d ∧ d ≤ lastDay y mo ∧ h ≤ 23 ∧ mi ≤ 59 ∧ se ≤ 59) ∧
      dayNumber y mo d * 86400 + h * 3600 + mi * 60 + se = c.time ∧
      (clockPageWords c).map BitVec.toNat =
        [y, mo, d, h, mi, se, (c.time / 86400 + 5) % 7, c.time / 60, bit c.set, c.minuteEvents.toNat, 0, 0, 0, 0, 0, 0]) ∧
  (∀ s : State,
    let half := fun x : Int => (x % 0x10000).toNat
    let full := fun x : Int => (x % 0x100000000).toNat
    let temp := fun o : Option Int => (o.map half).getD 0x8000
    let bytes := fun (absent : Nat) (l : List Nat) =>
      l.getD 0 absent + 0x100 * l.getD 1 absent + 0x10000 * l.getD 2 absent + 0x1000000 * l.getD 3 absent
    let holds := fun table : List (Nat × Nat) => ∀ k v, (k, v) ∈ table → ((reportWords s).getD (k - 0x601) 0).toNat = v
    let r := s.be.totals
    let q := s.dc.run
    (reportWords s).length = 511 ∧
    holds [
      (0x601, deviceStateCode s.mc.state + 0x100 * linkStateCode s.flc.work + 0x10000 * bit (accepted s .hvok)
        + 0x20000 * bit (accepted s .clvl) + 0x40000 * bit (accepted s .chgp)),
      (0x602, s.be.passCount.toNat), (0x603, s.be.overruns % 0x10000 + 0x10000 * (s.flc.recoveries % 0x10000)),
      (0x604, full s.mu.copy.budget),
      (0x605, bit s.mu.copy.current + 0x10000 * (s.mu.commitAge.getD 0 % 0x10000))] ∧
    holds [(0x610, full r.bStart), (0x611, full r.bEnd), (0x612, full r.h), (0x613, full r.c), (0x614, full r.r),
      (0x615, full r.cost), (0x616, full r.f), (0x617, full r.copEff), (0x618, full r.compUse), (0x619, full r.heatUse),
      (0x61A, full r.compLeft), (0x61B, full r.heatLeft),
      (0x61C, bit r.compAvail + 2 * bit r.heatAvail + 4 * bit r.recAvail + 8 * bit r.pumpAvail + 16 * bit r.radAvail),
      (0x61D, full s.be.frost), (0x61E, full r.radiated)] ∧
    (∀ z,
      let a := 0x620 + 32 * zoneNumber z
      let g := zget s.be.comp z
      let p := zget s.pu.zones z
      let u := zget s.be.results z
      let f := zget s.au.paths z
      let waits := (waitOf s z).map Fin.val
      holds [(0x606 + zoneNumber z, full (zget s.mu.copy.ff z)), (a, temp g.lo + 0x10000 * temp g.hi),
        (a + 1, allotClassCode g.cls + 0x10 * (g.weight % 16) + 0x100 * (g.top.map Fin.val).getD 31
          + 0x10000 * zoneStateCode p.state + 0x100000 * bit p.high + 0x200000 * bit p.low + 0x400000 * bit p.hard
          + 0x800000 * bit (zget s.mu.degraded z) + 0x1000000 * bit p.locked.isSome + 0x2000000 * bit u.unserved
          + 0x4000000 * (bit f.source + 2 * bit f.sink + 4 * bit f.radiate + 8 * bit f.chill + 16 * bit f.pump
            + 32 * bit f.resistive)),
        (a + 2, bytes 31 (g.entries.map fun e => e.1.val + 0x80 * bit e.2)),
        (a + 3, bytes 0xFF ((stackOf s z).map Fin.val)), (a + 4, bytes 0xFF waits),
        (a + 5, bytes 0xFF (waits.drop 4)), (a + 6, bytes 0xFF (waits.drop 8)), (a + 7, bytes 0xFF (waits.drop 12)),
        (a + 8, bytes 0xFF (waits.drop 16)), (a + 9, bytes 0xFF (waits.drop 20)),
        (a + 10, temp (measurement s z) + 0x10000 * temp (zget s.mu.lastValid z)),
        (a + 11, (u.error.map full).getD 0x80000000), (a + 12, full u.integral), (a + 13, full u.demand),
        (a + 14, full u.recovered), (a + 15, full u.radiated), (a + 16, full u.chilled), (a + 17, full u.pumped),
        (a + 18, full u.resistive), (a + 19, full u.served),
        (a + 20, half p.power.computed + 0x10000 * half p.power.published),
        (a + 21, if z = .packA then half s.pu.chargeA.computed + 0x10000 * half s.pu.chargeA.published
          else if z = .packB then half s.pu.chargeB.computed + 0x10000 * half s.pu.chargeB.published else 0)] ∧
      ∀ k, 22 ≤ k → k < 32 → holds [(a + k, 0)]) ∧
    (∀ n : Slot, holds (match (slotRec s n).work with
      | none => [(0x6C0 + 2 * n.val, 0), (0x6C1 + 2 * n.val, 0)]
      | some w => [(0x6C0 + 2 * n.val, half w.target + 0x10000 * half w.halfBand),
          (0x6C1 + 2 * n.val, combineCode w.combine + 0x10 * classCode w.cls + 0x100 * (w.weight % 16)
            + 0x1000 * (w.alpha.getD 0 % 16))])) ∧
    (∀ k : Fin 16, let e := s.mu.channels.get k
      holds [(0x700 + k.val, temp e.value + 0x10000 * (e.age % 0x100)
        + 0x1000000 * channelStateCode (channelState (holdLimit s) e) + 0x10000000 * bit e.rangeFault)]) ∧
    (∀ n : Fin 30, let e := s.flc.nodes.get n
      holds [(0x710 + n.val, nodeStateCode e.state + 0x10 * (e.misses % 16) + 0x100 * (e.good % 2)
        + 0x1000 * missCode e.lastError)]) ∧
    (∀ i : Fin 12, let e := s.au.acts.get i
      holds [(0x730 + 2 * i.val, (e.command.map half).getD 0xFFFF + 0x10000 * (e.feedback.map half).getD 0xFFFF),
        (0x731 + 2 * i.val, aimCode e.aim + 0x10 * bit e.latch.isSome + 0x100 * faultCode e.latch
          + 0x1000 * (e.tracking % 4))]) ∧
    holds ([
      (0x750, runStateCode q.state + 0x10 * rememberedCode q.remembered + 0x40 * bit q.suspendable
        + 0x80 * bit q.pendingSuspend + 0x100 * abortCode q.aborted + 0x1000 * (q.suspendCount % 4)
        + 0x10000 * (q.resumeCount % 0x40) + 0x1000000 * originCode q.origin),
      (0x751, q.phaseTimer % 0x100000000), (0x752, q.meltTime % 0x100000000),
      (0x753, q.suspendedTime % 0x100000000)] ++
      match s.dc.last with
      | none => [(0x754, 31), (0x755, 0)]
      | some l => [(0x754, originCode l.origin + 0x100 * (if l.cause = none then 1 else 2) + 0x1000 * abortCode l.cause
          + 0x10000 * (l.suspendCount % 4) + 0x80000000), (0x755, l.suspendedTime % 0x100000000)]) ∧
    ∀ k, (0x60B ≤ k ∧ k ≤ 0x60F) ∨ k = 0x61F ∨ (0x6F0 ≤ k ∧ k ≤ 0x6FF) ∨ k = 0x72E ∨ k = 0x72F ∨
      (0x748 ≤ k ∧ k ≤ 0x74F) ∨ (0x756 ≤ k ∧ k ≤ 0x7FF) → holds [(k, 0)]) ∧
  ([DeviceState.unconfigured, .parked, .starting, .active, .parking, .quiescing].map deviceStateCode =
      [0, 1, 2, 3, 4, 5] ∧
    [LinkWork.off, .brk, .preamble, .due, .window, .waiting].map linkStateCode = [0, 1, 2, 3, 3, 4] ∧
    (∀ w, exchangeInFlight w = true → linkStateCode w = 3) ∧
    [none, some AllotClass.p, some .a, some .b, some .c].map allotClassCode = [0, 1, 2, 3, 4] ∧
    [ZoneState.idle, .normal, .protect, .hard, .degraded].map zoneStateCode = [0, 1, 2, 3, 4] ∧
    [Combine.replace, .blend, .floor, .ceiling].map combineCode = [0, 1, 2, 3] ∧
    [Class.a, .b, .c].map classCode = [0, 1, 2] ∧
    [ChannelState.none, .fresh, .held, .failed].map channelStateCode = [0, 1, 2, 3] ∧
    [NodeState.unknown, .online, .missing, .failed].map nodeStateCode = [0, 1, 2, 3] ∧
    [none, some MissKind.noReply, some .frame, some .mark, some .address, some .length, some .check, some .gap,
      some .status].map missCode = [0, 1, 2, 3, 4, 5, 6, 7, 8] ∧
    [AimCase.load, .defrost, .rest].map aimCode = [0, 1, 2] ∧
    [none, some FaultKind.nodeFailed, some .stall, some .overtemp, some .nodeFault, some .tracking].map faultCode =
      [0, 1, 2, 3, 4, 5] ∧
    [RunState.idle, .prepare, .melt, .drip, .restore, .suspended].map runStateCode = [0, 1, 2, 3, 4, 5] ∧
    [none, some RememberedPhase.melt, some .drip].map rememberedCode = [0, 1, 2] ∧
    [none, some AbortCause.retract, some .parking, some .hvok, some .suspendTime, some .quiesce].map abortCode =
      [0, 1, 2, 3, 4, 5] ∧
    originCode none = 31 ∧ originCode (some .auto) = 30 ∧ ∀ n : Slot, originCode (some (.slot n)) = n.val)

/-- R5: a write to the configuration area is stored in UNCONFIGURED and in PARKED, with no effect but the stored word,
and refused WRITE_FROZEN in every other device state; the area is read in every device state. -/
def Obligations.ConfigurationAreaIsFrozenWhileRunning : Prop :=
  ∀ (a : Addr) (v : Word) (s : State), a.toNat < 0x200 →
    (portTakes .write a s →
      ((s.mc.state = .unconfigured ∨ s.mc.state = .parked) →
        exec (.hostWriteWord a v) s = .next { accessed .write a 0 s with xm := memWrite s.xm a.toNat v }) ∧
      (s.mc.state ≠ .unconfigured ∧ s.mc.state ≠ .parked →
        exec (.hostWriteWord a v) s = .next (invalid .writeFrozen a (accessed .write a 0 s)))) ∧
    (portTakes .read a s → exec (.hostReadWord a) s = .next (accessed .read a (memRead s.xm a.toNat) s))

/-- R4, R7: a body word is stored while its slot is EMPTY and refused WRITE_HELD otherwise; amend words, page words and
a control word of 0 are stored; status words, the slot summary, the clock page, ID and STAT are refused WRITE_OWNED. -/
def Obligations.WritesFollowTheOwnershipMap : Prop :=
  ∀ (a : Addr) (v : Word) (s : State), portTakes .write a s →
    (∀ (n : Slot) (k : Nat), a.toNat = 0x300 + 16 * n.val + k →
      ((1 ≤ k ∧ k ≤ 9 ∧ (slotRec s n).state = .empty) ∨ (10 ≤ k ∧ k ≤ 11) ∨ (k = 0 ∧ v = 0) →
        exec (.hostWriteWord a v) s = .next { accessed .write a 0 s with xm := memWrite s.xm a.toNat v }) ∧
      (1 ≤ k ∧ k ≤ 9 ∧ (slotRec s n).state ≠ .empty →
        exec (.hostWriteWord a v) s = .next (invalid .writeHeld a (accessed .write a 0 s))) ∧
      (12 ≤ k ∧ k ≤ 15 →
        exec (.hostWriteWord a v) s = .next (invalid .writeOwned a (accessed .write a 0 s)))) ∧
    (0x200 ≤ a.toNat ∧ a.toNat < 0x230 ∧ a.toNat ≠ 0x21F →
      exec (.hostWriteWord a v) s = .next { accessed .write a 0 s with xm := memWrite s.xm a.toNat v }) ∧
    ((0x500 ≤ a.toNat ∧ a.toNat < 0x503) ∨ (0x800 ≤ a.toNat ∧ a.toNat < 0x810) ∨ a = 0x1000 ∨ a = 0x1002 →
      exec (.hostWriteWord a v) s = .next (invalid .writeOwned a (accessed .write a 0 s)))

/-- R17, R18: a CAUSE write clears exactly the flags whose bits are 1, a CMASK write stores the nine enables, each
changes nothing else, and ATTN is asserted exactly while some flag is both set and enabled. -/
def Obligations.CauseAndMaskWritesDriveAttention : Prop :=
  (∀ (v : Word) (s : State), portTakes .write 0x1003 s →
    ∃ t, exec (.causeWrite v) s = .next t ∧
      t = { accessed .write 0x1003 0 s with pi := { (accessed .write 0x1003 0 s).pi with cause := t.pi.cause } } ∧
      ∀ f, causeIsSet t f = (causeIsSet s f && !v.getLsbD (causeBit f))) ∧
  (∀ (v : Word) (s : State), portTakes .write 0x1004 s →
    exec (.cmaskWrite v) s = .next
      { accessed .write 0x1004 0 s with pi := { (accessed .write 0x1004 0 s).pi with cmask := v.setWidth 9 } }) ∧
  (∀ s : State, attnAsserted s = true ↔ ∃ f, causeIsSet s f = true ∧ s.pi.cmask.getLsbD (causeBit f) = true)

/-! ## The CTRL actions (R16, chapter 2 and the owners' chapters) -/

/-- R16: an action that comes while BUSY is set, in a state that does not take it then, is answered BUSY; one that its
owner's state table refuses is answered WRONG_STATE (R20, R23, R26, R28, R108, R175); a code that is no action is
answered UNKNOWN_ACTION; and a write of code 0 is no action, whatever its parameter, and is answered nothing. CTRL
keeps the written word, and nothing else changes. -/
def Obligations.CtrlActionsAreRefusedByState : Prop :=
  (∀ (a : CtrlAction) (p : CtrlParam) (s : State), ctrlTakes s → s.pi.busy = true →
    (match a with
      | .configure | .clearFaults | .lockLimits | .timeSet | .timeNudge => True
      | .modeActive => s.mc.state = .starting ∨ s.mc.state = .quiescing
      | .modeParked | .linkReset => s.mc.state = .parking ∨ s.mc.state = .quiescing
      | .quiesce => s.mc.state = .quiescing
      | .portReset => False) →
    exec (ctrlInstr a p) s = .next (answered a .busy (atAction (actionCode a) p s))) ∧
  (∀ (a : CtrlAction) (p : CtrlParam) (s : State), ctrlTakes s → s.pi.busy = false →
    (match a with
      | .modeActive => s.mc.state = .unconfigured ∨ s.mc.state = .active
      | .modeParked | .quiesce => s.mc.state = .unconfigured ∨ s.mc.state = .parked
      | .configure => s.mc.state = .active
      | .linkReset | .lockLimits => s.mc.state = .unconfigured
      | .portReset | .clearFaults | .timeSet | .timeNudge => False) →
    exec (ctrlInstr a p) s = .next (answered a .wrongState (atAction (actionCode a) p s))) ∧
  (∀ (v : Word) (s : State), ctrlTakes s → 10 < v.toNat % 256 →
    exec (.unknownAction v) s = .next
      { s with
        pi := { s.pi with
          port := .words .write 0x1002
          sdo := 0
          ctrl := v
          lastAction := .unknown
          lastResult := .unknownAction } }) ∧
  (∀ (v : Word) (s : State), ctrlTakes s → v.toNat % 256 = 0 →
    exec (.hostWriteWord 0x1001 v) s = .next
      { s with pi := { s.pi with port := .words .write 0x1002, sdo := 0, ctrl := v } })

/-- R20: a MODE_ACTIVE in PARKED sets BUSY and enters STARTING: the wake line is released and its timer stopped, the
period timer starts at 0, the link begins a break, and every enabled actuator's command is its rest value. A
MODE_ACTIVE in PARKING enters STARTING with the period timer and the commands as they stand; the link begins a break at
once when it has no exchange, break or preamble in flight, and after that work otherwise (R106). -/
def Obligations.ModeActiveEntersStarting : Prop :=
  (∀ (p : CtrlParam) (s : State), ctrlTakes s → s.pi.busy = false → s.mc.state = .parked →
    ∃ t, exec (.modeActive p) s = .next t ∧
      t = { atAction 1 p s with
        pi := { (atAction 1 p s).pi with busy := true, lastAction := .action .modeActive, lastResult := .inProgress }
        mc := { s.mc with state := .starting, wake := false, wakeTimer := none }
        be := { s.be with timer := some 0 }
        flc := { s.flc with work := .brk, after := .go }
        au := { s.au with acts := t.au.acts } } ∧
      ∀ i, t.au.acts.get i =
        { s.au.acts.get i with
          command :=
            match s.mc.config with
            | some c => if (c.acts.get i).enable then some (c.acts.get i).rest else (s.au.acts.get i).command
            | none => (s.au.acts.get i).command }) ∧
  (∀ (p : CtrlParam) (s : State), ctrlTakes s → s.mc.state = .parking → s.flc.work ≠ .off →
    exec (.modeActive p) s = .next
      { atAction 1 p s with
        pi := { (atAction 1 p s).pi with busy := true, lastAction := .action .modeActive, lastResult := .inProgress }
        mc := { s.mc with state := .starting, wake := false, wakeTimer := none }
        flc :=
          if s.flc.work = .waiting ∨ s.flc.work = .due then { s.flc with work := .brk, after := .go }
          else { s.flc with after := .brk } })

/-- R23, R24: a MODE_PARKED in ACTIVE or STARTING sets BUSY and enters PARKING: every stack is emptied and its entries
wait with reason PARKED, each zone's list in wait-list order (R47), a run in progress is aborted with cause PARKING as
R186 says, the pass in flight is abandoned, the integrals, previous-pass items and compositions are cleared and the
period timer restarts at 0, the degraded flags are cleared, and no host-written word, clock, configuration or published
value changes. An entry joins the wait list of the zone whose stack it leaves, those that wait stay in theirs with
reason PARKED, and every other slot, an ACTIVE PROCEDURE's included, keeps its record. The link work in flight goes on,
and a sweep that a period expiry has cut is followed by the next one; with no link work in flight a sweep begins at the
cursor at once, over an empty exchange list at the next period expiry (R102). The model's choices: the empty list
(notes/assumptions/32.md), a sweep's begin clears what the actuators have carried (17), and R162 sets every actuator's
aim case to REST, which the model does to a disabled one's record too (43). -/
def Obligations.ModeParkedEntersParking : Prop :=
  ∀ (p : CtrlParam) (s : State), ctrlTakes s →
    (s.mc.state = .active ∧ s.pi.busy = false) ∨ s.mc.state = .starting →
    ∃ t, exec (.modeParked p) s = .next t ∧
      t = { atAction 2 p s with
        pi := { (atAction 2 p s).pi with busy := true, lastAction := .action .modeParked, lastResult := .inProgress }
        mc := { s.mc with state := .parking }
        du := t.du
        flc :=
          if s.flc.work = .waiting then
            if exchangeList s = [] then s.flc
            else { s.flc with work := .due, after := .go, fromFirst := decide (s.flc.cursor = 0) }
          else { s.flc with after := if s.flc.after = .cut then .cutResume else s.flc.after }
        mu := { s.mu with degraded := zmk fun _ => false }
        be := { s.be with
          timer := some 0
          integral := zmk fun _ => 0
          prev := zmk fun _ => ⟨0, false⟩
          comp := zmk fun _ => ⟨none, none, none, 0, none, []⟩
          inFlight := none }
        au := { s.au with acts := t.au.acts }
        pu := { s.pu with firstPass := false }
        dc := { s.dc with run := t.dc.run } } ∧
      (∀ i, t.au.acts.get i = { s.au.acts.get i with
        aim := .rest
        carried := if s.flc.work = .waiting ∧ exchangeList s ≠ [] then none else (s.au.acts.get i).carried }) ∧
      (∀ z, stackOf t z = []) ∧
      (∀ z i, i ∈ stackOf s z → slotRec t i = waitingRecord .parked (slotRec s i) ∧ ∃ y, i ∈ waitOf t y) ∧
      (∀ z i, i ∈ stackOf s z → (∀ y, i ∈ stackOf s y → y = z) → i ∈ waitOf t z) ∧
      (∀ i, (slotRec s i).state = .waiting → (∀ y, i ∉ stackOf s y) →
        slotRec t i = { slotRec s i with reason := some .parked }) ∧
      (∀ z i, i ∈ waitOf s z → (∀ y, i ∉ stackOf s y) → i ∈ waitOf t z) ∧
      (directiveLists s → ∀ z,
        (∀ i, i ∈ waitOf t z ↔ i ∈ stackOf s z ∨ i ∈ waitOf s z) ∧ (waitOf t z).Nodup ∧
          (waitOf t z).Pairwise (waitsFirst t)) ∧
      (∀ i, (∀ y, i ∉ stackOf s y) → (slotRec s i).state ≠ .waiting → slotRec t i = slotRec s i) ∧
      t.dc.run = abortedBy .parking s.dc.run

/-- R26, R61, R116, R136, R162, R174, R188: a QUIESCE in STARTING, ACTIVE or PARKING sets BUSY and enters QUIESCING:
every PENDING, WAITING and ACTIVE slot ends QUIESCED, with no SLOT_END, and every other keeps its record; a run in
progress ends at once, ABORTED with cause QUIESCE in the last-run record; the pass in flight is abandoned, the
integrals, previous-pass items and compositions are cleared and the period timer restarts at 0; the degraded flags and
the first-pass mark are cleared; every enabled actuator's command is its rest value at once and every aim case REST.
The exchange in flight completes, and then a sweep from the first exchange begins; a break or preamble in flight
completes with the preamble and the sweep that follows it; with no link work in flight, a request that is due and not
begun included, that sweep begins at once. Nothing else changes: CAUSE, the host's words, the clock, the configuration,
the frost, the node records, the vehicle copy and what has been published are as they were. Where the exchange list is
empty and no link work is in flight the sweep completes at its start (R101), so PARKED is entered at once and CTRL_DONE
(bit 8) alone is raised. The model's choices: the reading of R26 with R101 (notes/assumptions/32.md), a sweep's begin
clears what the actuators have carried (17), and the aim case of a disabled actuator is REST too (43). -/
def Obligations.QuiesceEndsEverything : Prop :=
  ∀ (p : CtrlParam) (s : State), ctrlTakes s →
    (s.mc.state = .active ∧ s.pi.busy = false) ∨ s.mc.state = .starting ∨ s.mc.state = .parking →
    let idleLink : Prop := s.flc.work = .waiting ∨ s.flc.work = .due
    ∃ t u, exec (.quiesce p) s = .next t ∧
      u = { atAction 4 p s with
        pi := { (atAction 4 p s).pi with busy := true, lastAction := .action .quiesce, lastResult := .inProgress }
        mc := { s.mc with state := .quiescing }
        du := u.du
        mu := { s.mu with degraded := zmk fun _ => false }
        be := { s.be with
          timer := some 0
          integral := zmk fun _ => 0
          prev := zmk fun _ => ⟨0, false⟩
          comp := zmk fun _ => ⟨none, none, none, 0, none, []⟩
          inFlight := none }
        au := { s.au with acts := u.au.acts }
        pu := { s.pu with firstPass := false }
        dc :=
          if s.dc.run.state = .idle then s.dc
          else
            { run := RunRec.idle
              last := some ⟨s.dc.run.origin, some .quiesce, s.dc.run.suspendCount, s.dc.run.suspendedTime⟩ } } ∧
      (∀ a, u.au.acts.get a =
        { s.au.acts.get a with
          aim := .rest
          command :=
            match s.mc.config with
            | some c => if (c.acts.get a).enable then some (c.acts.get a).rest else (s.au.acts.get a).command
            | none => (s.au.acts.get a).command }) ∧
      (∀ i, (slotRec s i).state = .pending ∨ (slotRec s i).state = .waiting ∨ (slotRec s i).state = .active →
        slotRec u i = { slotRec s i with state := .ended, reason := none, outcome := some .quiesced, work := none } ∧
          ∀ z, i ∉ stackOf u z ∧ i ∉ waitOf u z) ∧
      (∀ i, (slotRec s i).state = .empty ∨ (slotRec s i).state = .ended → slotRec u i = slotRec s i) ∧
      (exchangeInFlight s.flc.work = true → t = { u with flc := { s.flc with after := .first } }) ∧
      (s.flc.work = .brk ∨ s.flc.work = .preamble → t = { u with flc := { s.flc with after := .go } }) ∧
      (s.flc.work = .off → t = u) ∧
      (idleLink → exchangeList s ≠ [] → sweepBegun 0 u t) ∧
      (idleLink → exchangeList s = [] → ∀ c, s.mc.config = some c → parkedFrom .quiesce c u t) ∧
      (if exchangeList s = [] ∧ (s.flc.work = .waiting ∨ s.flc.work = .due) then
        t.mc.state = .parked ∧ t.pi.busy = false ∧ t.pi.lastResult = .done ∧ t.pi.cause = s.pi.cause ||| 0x100 ∧
          t.flc.work = .off ∧ t.be.lock = .off ∧ t.be.timer = none
      else
        t.mc.state = .quiescing ∧ t.pi.busy = true ∧ t.pi.lastResult = .inProgress ∧ t.pi.cause = s.pi.cause ∧
          t.be.lock = s.be.lock ∧ t.be.timer = some 0) ∧
      t.pi.lastAction = .action .quiesce ∧ t.du = u.du ∧ t.dc = u.dc ∧ t.pu = u.pu ∧
      t.be.inFlight = none ∧ (∀ z, zget t.be.integral z = 0) ∧
      (∀ a, (t.au.acts.get a).command = (u.au.acts.get a).command) ∧
      t.xm = s.xm ∧ t.cc = s.cc ∧ t.mc.config = s.mc.config ∧ t.be.frost = s.be.frost ∧
      t.be.passCount = s.be.passCount ∧ t.pi.report = s.pi.report ∧ t.mu.copy = s.mu.copy ∧
      (∀ n, t.flc.nodes.get n = s.flc.nodes.get n) ∧
      (∀ z, (zget t.pu.zones z).power = (zget s.pu.zones z).power)

/-- R28, R29: a CONFIGURE in UNCONFIGURED or PARKED is answered with the code of the first check that fails, in the
order of the table, and changes nothing else. One that passes commits the configuration of the area and leaves the
state PARKED: the limits in force become the configured limits and the locks are kept (R163, R176), every node record
is UNKNOWN (R98), the cursor is at the first node and the link stays off, every channel is NONE (R113) with the last
valid measurements kept (R115), every enabled actuator's command is its rest value with its latch kept (R155, R162),
the frost is capped (R147) and the lock state is OFF. The vehicle copy is judged against the new grant timeout: a
current one whose time has reached it goes stale and raises STALE (bit 6), a degraded one takes the new floor grant,
and any other is kept (R122). Nothing else changes. What each check asks is stated field by field: the ranges of R28,
R110, R128, R150, R163 and chapter 11, the addresses, the references and the locks; and so is what is read of each word
of the area: the fields of the layout (13.3), signed ones in two's complement, an enumerated one absent where its code
has no meaning. The model's readings: the cold fields and the fallback charge allowance are the packs' alone and stand
at 0 elsewhere (notes/assumptions/40.md), a designated channel is 0..15 or 31 (41), the first path enable of the order
has the lowest bit (61), and the copy is judged at the CONFIGURE (53). -/
def Obligations.ConfigureChecksThenCommits : Prop :=
  (∀ (p : CtrlParam) (s : State), ctrlTakes s → s.pi.busy = false →
     s.mc.state = .unconfigured ∨ s.mc.state = .parked →
     (checkRanges (cfgOfArea s.xm) = false →
       exec (.configure p) s = .next (answered .configure .badTable (atAction 3 p s))) ∧
     (checkRanges (cfgOfArea s.xm) = true → checkAddresses (cfgOfArea s.xm) = false →
       exec (.configure p) s = .next (answered .configure .dupAddress (atAction 3 p s))) ∧
     (checkRanges (cfgOfArea s.xm) = true → checkAddresses (cfgOfArea s.xm) = true →
       checkReferences (cfgOfArea s.xm) = false →
       exec (.configure p) s = .next (answered .configure .badRef (atAction 3 p s))) ∧
     (checkRanges (cfgOfArea s.xm) = true → checkAddresses (cfgOfArea s.xm) = true →
       checkReferences (cfgOfArea s.xm) = true → checkLocks s.pu (cfgOfArea s.xm) = false →
       exec (.configure p) s = .next (answered .configure .lockedLimits (atAction 3 p s)))) ∧
  (∀ (p : CtrlParam) (s : State) (c : Cfg), ctrlTakes s → s.pi.busy = false →
     s.mc.state = .unconfigured ∨ s.mc.state = .parked →
     c = cfgOfArea s.xm → checkRanges c = true → checkAddresses c = true → checkReferences c = true →
     checkLocks s.pu c = true →
     ∃ t, exec (.configure p) s = .next t ∧
       let stale := s.mu.copy.current = true ∧ ∃ e, s.mu.commitAge = some e ∧ c.grantTimeout * 1000 ≤ e
       t = { atAction 3 p s with
         pi := { (answered .configure .done (atAction 3 p s)).pi with cause := t.pi.cause }
         mc := { s.mc with config := some c, state := .parked }
         flc := { s.flc with nodes := t.flc.nodes, cursor := 0, round := t.flc.round }
         mu := { s.mu with channels := t.mu.channels, copy := t.mu.copy, commitAge := t.mu.commitAge }
         be := { s.be with lock := .off, frost := min s.be.frost c.plant.frostLimit }
         au := t.au
         pu := { s.pu with zones := t.pu.zones } } ∧
       (stale → t.pi.cause = s.pi.cause ||| 0x40 ∧ t.mu.copy = ⟨c.floorGrant, ⟨0, 0, 0, 0, 0⟩, false⟩ ∧
         t.mu.commitAge = none) ∧
       (¬ stale → t.pi.cause = s.pi.cause ∧ t.mu.commitAge = s.mu.commitAge ∧
         t.mu.copy =
           if s.mu.copy.current = true then s.mu.copy else { s.mu.copy with budget := c.floorGrant }) ∧
       (∀ n, t.flc.round.get n = false) ∧
       (∀ z, zget t.pu.zones z = { zget s.pu.zones z with limits := some (zget c.zones z).limits }) ∧
       (∀ n, t.flc.nodes.get n = ⟨.unknown, 0, 0, none⟩) ∧
       (∀ k, t.mu.channels.get k = ⟨none, 0, false, .unknown⟩) ∧
       (∀ a, t.au.acts.get a =
         { command := if (c.acts.get a).enable then some (c.acts.get a).rest else none
           latch := (s.au.acts.get a).latch
           tracking := 0
           feedback := none
           node := .unknown
           aim := .rest
           carried := none }) ∧
       ∀ z,
         let e := (zget c.zones z).paths
         let flag := fun (enabled : Bool) (k : Nat) => enabled && decide (∀ a, (c.acts.get a).enable = true →
           (s.au.acts.get a).latch ≠ none → (c.acts.get a).essential.testBit (6 * zoneNumber z + k) = false)
         zget t.au.paths z =
           ⟨flag e.source 0, flag e.sink 1, flag e.radiate 2, flag e.chill 3, flag e.pump 4, flag e.resistive 5⟩) ∧
  (∀ c : Cfg,
     (checkRanges c = true ↔
       (c.divisor ∈ Set.Icc 1 8 ∧ c.wakeTimeout ∈ Set.Icc 1 60 ∧ c.catchWindow ≤ 120 ∧ c.grantTimeout ∈ Set.Icc 1 30 ∧
         c.floorGrant ∈ Set.Icc 0 60000 ∧ c.bitRate ≤ 2 ∧ c.missLimit ∈ Set.Icc 1 8 ∧ c.holdLimit ∈ Set.Icc 2 20) ∧
       (∀ n, (c.nodes.get n).enable = true →
         (c.nodes.get n).kind ≠ none ∧ (c.nodes.get n).address ∈ Set.Icc 1 30) ∧
       (∀ k, (c.channels.get k).enable = true →
         (c.channels.get k).node ∈ Set.Icc 1 30 ∧ (c.channels.get k).index ≤ 3 ∧
           (c.channels.get k).plausLo ≤ (c.channels.get k).plausHi) ∧
       (∀ z, let r := zget c.zones z; let l := r.limits
         (r.channels.length ∈ Set.Icc 1 3 ∧ r.agg ≠ none ∧ r.kp ∈ Set.Icc 0 5000 ∧ r.ki ∈ Set.Icc 0 500 ∧
           r.imax ∈ Set.Icc 0 50000 ∧ r.hmax ∈ Set.Icc 0 60000 ∧ r.cmax ∈ Set.Icc 0 60000 ∧
           r.fbDemand ∈ Set.Icc (-60000) 60000 ∧ r.fbClass ≠ none ∧ r.fbWeight ∈ Set.Icc 1 15 ∧
           r.fbPower ∈ Set.Icc 0 1000 ∧ r.fbCharge ∈ Set.Icc 0 1000 ∧ r.lag ∈ Set.Icc 1 600 ∧ r.leadMargin ≤ 120) ∧
         (l.tmin ∈ Set.Icc (-400) 1500 ∧ l.tmax ∈ Set.Icc (-400) 1500 ∧ l.tmin ≤ l.tmax ∧
           l.softHi ∈ Set.Icc (-500) 1600 ∧ l.hardHi ∈ Set.Icc (-500) 1600 ∧ l.lowProtect ∈ Set.Icc (-500) 1600 ∧
           l.lowProtect < l.softHi ∧ l.softHi < l.hardHi ∧ l.margin ∈ Set.Icc 0 200 ∧ l.hysteresis ∈ Set.Icc 0 200 ∧
           l.riseStep ∈ Set.Icc 1 1000 ∧
           (z = .packA ∨ z = .packB →
             l.coldZero ∈ Set.Icc (-500) 600 ∧ l.coldFull ∈ Set.Icc (-500) 600 ∧ l.coldZero < l.coldFull))) ∧
       (∀ i, let a := c.acts.get i
         a.enable = true →
           a.node ∈ Set.Icc 1 30 ∧ a.output ≤ 3 ∧ a.source ≠ none ∧ a.base ∈ Set.Icc 0 1000 ∧
             a.gain ∈ Set.Icc (-1000) 1000 ∧ a.min ∈ Set.Icc 0 1000 ∧ a.max ∈ Set.Icc 0 1000 ∧ a.min ≤ a.max ∧
             a.slew ∈ Set.Icc 1 1000 ∧ a.rest ∈ Set.Icc a.min a.max ∧
             (∀ d, a.defrost = some d → d ∈ Set.Icc a.min a.max) ∧ a.cap ∈ Set.Icc 0 1000 ∧
             a.tolerance ∈ Set.Icc 0 1000) ∧
       (let p := c.plant
        (p.pcomp ∈ Set.Icc 0 30000 ∧ p.pheat ∈ Set.Icc 0 30000 ∧ p.copr ∈ Set.Icc 10 60 ∧ p.copc ∈ Set.Icc 10 60 ∧
          p.coph ∈ Set.Icc 10 60 ∧ p.tmaxHeat ∈ Set.Icc 0 30000 ∧ p.hpMinAmb ∈ Set.Icc (-400) 200 ∧
          p.krad ∈ Set.Icc 0 1000 ∧ p.fmax ∈ Set.Icc 0 60000 ∧ p.frostTemp ∈ Set.Icc (-300) 100 ∧
          p.frostLimit ∈ Set.Icc 100 60000) ∧
        (∀ n ∈ [p.radInlet, p.ambient, p.evapOutlet], n < 16 ∨ n = 31) ∧
        (p.prepareTime ∈ Set.Icc 10 120 ∧ p.dripTime ∈ Set.Icc 30 300 ∧ p.meltMax ∈ Set.Icc 60 900 ∧
          p.restoreTime ∈ Set.Icc 10 120 ∧ p.meltEnd ∈ Set.Icc (-100) 200 ∧ p.meltPower ∈ Set.Icc 0 30000 ∧
          p.resumeDelay ∈ Set.Icc 1 60 ∧ p.suspendMax ∈ Set.Icc 1 30))) ∧
     (checkAddresses c = true ↔
       ∀ m n, (c.nodes.get m).enable = true → (c.nodes.get n).enable = true →
         (c.nodes.get m).address = (c.nodes.get n).address → m = n) ∧
     (checkReferences c = true ↔
       let names := fun (kinds : List NodeKind) (address : Nat) => ∃ n k, (c.nodes.get n).enable = true ∧
         (c.nodes.get n).address = address ∧ (c.nodes.get n).kind = some k ∧ k ∈ kinds
       let channel := fun m : Nat => ∃ k : Fin 16, k.val = m ∧ (c.channels.get k).enable = true
       (∀ k, (c.channels.get k).enable = true → names [.sensor, .mixed] (c.channels.get k).node) ∧
       (∀ z, ∀ m ∈ (zget c.zones z).channels, channel m) ∧
       (∀ m ∈ [c.plant.radInlet, c.plant.ambient, c.plant.evapOutlet], m = 31 ∨ channel m) ∧
       (∀ i, (c.acts.get i).enable = true →
         names [.actuator, .mixed] (c.acts.get i).node ∧
         ((c.acts.get i).source = some .zoneHeat ∨ (c.acts.get i).source = some .zoneCool →
           (c.acts.get i).zones.length = 1) ∧
         ((c.acts.get i).source = some .zoneAny → (c.acts.get i).zones.length ∈ Set.Icc 1 3)) ∧
       ∀ i j, (c.acts.get i).enable = true → (c.acts.get j).enable = true →
         (c.acts.get i).node = (c.acts.get j).node → (c.acts.get i).output = (c.acts.get j).output → i = j) ∧
     ∀ p : PU, checkLocks p c = true ↔
       ∀ z l, (zget p.zones z).locked = some l → (zget c.zones z).limits = l) ∧
  (∀ m : Memory,
     let c := cfgOfArea m
     let field := fun a hi lo : Nat => (memRead m a).toNat / 2 ^ lo % 2 ^ (hi - lo + 1)
     let flag := fun a i : Nat => (memRead m a).getLsbD i
     let signed := fun a lo : Nat =>
       if field a (lo + 15) lo < 0x8000 then (field a (lo + 15) lo : Int) else (field a (lo + 15) lo : Int) - 0x10000
     (c.period = [250, 500, 1000, 2000].getD (field 0 1 0) 0 ∧ c.lockEnable = flag 0 4 ∧ c.divisor = field 0 11 8 ∧
       c.wakeTimeout = field 0 21 16 ∧ c.catchWindow = field 0 30 24 ∧ c.grantTimeout = field 1 4 0 ∧
       c.floorGrant = field 1 31 16 ∧ c.bitRate = field 2 1 0 ∧ c.missLimit = field 2 7 4 ∧
       c.holdLimit = field 2 12 8 ∧ c.filterCount = ⟨field 2 19 16, field 2 23 20, field 2 27 24⟩) ∧
     (∀ n : Fin 30, let a := 0x010 + n.val
       c.nodes.get n =
         ⟨flag a 0, [NodeKind.sensor, .actuator, .mixed][field a 2 1]?, field a 12 8⟩) ∧
     (∀ k : Fin 16, let a := 0x030 + 2 * k.val
       c.channels.get k = ⟨flag a 0, field a 12 8, field a 17 16, signed (a + 1) 0, signed (a + 1) 16⟩) ∧
     (∀ z, let a := 0x060 + 32 * zoneNumber z
       let pack := z = .packA ∨ z = .packB
       let r := zget c.zones z
       r.channels = [field a 3 0, field a 7 4, field a 11 8].take (field a 13 12) ∧
       r.agg = [Aggregation.max, .mean, .first][field a 17 16]? ∧
       r.paths = ⟨flag a 24, flag a 25, flag a 26, flag a 27, flag a 28, flag a 29⟩ ∧
       r.limits =
         { tmin := signed (a + 1) 0
           tmax := signed (a + 1) 16
           softHi := signed (a + 2) 0
           hardHi := signed (a + 2) 16
           lowProtect := signed (a + 3) 0
           margin := field (a + 3) 31 16
           hysteresis := field (a + 4) 15 0
           riseStep := field (a + 4) 31 16
           coldZero := if pack then signed (a + 5) 0 else 0
           coldFull := if pack then signed (a + 5) 16 else 0 } ∧
       r.kp = field (a + 6) 15 0 ∧ r.ki = field (a + 6) 31 16 ∧ r.imax = field (a + 7) 31 0 ∧
       r.hmax = field (a + 8) 31 0 ∧ r.cmax = field (a + 9) 31 0 ∧ r.fbDemand = (memRead m (a + 10)).toInt ∧
       r.fbClass = [Class.a, .b, .c][field (a + 11) 1 0]? ∧ r.fbWeight = field (a + 11) 7 4 ∧
       r.fbPower = field (a + 11) 25 16 ∧ r.fbCharge = (if pack then (field (a + 12) 9 0 : Int) else 0) ∧
       r.lag = field (a + 12) 25 16 ∧ r.leadMargin = field (a + 13) 6 0) ∧
     (∀ i : Fin 12, let a := 0x100 + 8 * i.val
       c.acts.get i =
         { enable := flag a 0
           node := field a 12 8
           output := field a 17 16
           source := [Source.compressorLoad, .heaterLoad, .radiatorLoad, .zoneHeat, .zoneCool, .zoneAny][field a 22 20]?
           zones := [Zone.packA, .packB, .drive, .cab, .berth].filter fun z => flag a (24 + zoneNumber z)
           base := field (a + 1) 15 0
           gain := signed (a + 1) 16
           min := field (a + 2) 15 0
           max := field (a + 2) 31 16
           slew := field (a + 3) 15 0
           rest := field (a + 3) 31 16
           defrost := if field (a + 4) 15 0 = 0xFFFF then none else some (field (a + 4) 15 0 : Int)
           tolerance := field (a + 4) 31 16
           pump := flag (a + 5) 0
           cap := field (a + 5) 25 16
           essential := field (a + 6) 29 0 }) ∧
     c.plant =
       { pcomp := field 0x160 15 0
         pheat := field 0x160 31 16
         copr := field 0x161 7 0
         copc := field 0x161 15 8
         coph := field 0x161 23 16
         recoveryEnable := flag 0x161 24
         autoDefrost := flag 0x161 25
         autoSuspendable := flag 0x161 26
         tmaxHeat := field 0x162 15 0
         hpMinAmb := signed 0x162 16
         krad := field 0x163 15 0
         fmax := field 0x163 31 16
         frostTemp := signed 0x164 0
         frostLimit := field 0x164 31 16
         radInlet := field 0x165 4 0
         ambient := field 0x165 12 8
         evapOutlet := field 0x165 20 16
         prepareTime := field 0x166 15 0
         dripTime := field 0x166 31 16
         meltMax := field 0x167 15 0
         restoreTime := field 0x167 31 16
         meltEnd := signed 0x168 0
         meltPower := field 0x168 31 16
         resumeDelay := field 0x169 7 0
         suspendMax := field 0x169 15 8 })

/-- R30: a PORT_RESET is taken in every state. It returns the device to UNCONFIGURED with no configuration and every
block to its reset values, but keeps the host's words other than the control words, CTRL, the clock, the report area
with a publication in flight, the line filters, the last valid measurements, and every lock with its limits. The
model's choices: beyond R30's own list the serial transaction, SDO and CTRL are kept (notes/assumptions/44.md), and
where no rule gives a reset value (the carried record, fromFirst, an empty composition, a working record; the aim case)
it is the model's (notes/assumptions/48.md, notes/assumptions/43.md). -/
def Obligations.PortResetReturnsToUnconfigured : Prop :=
  ∀ (p : CtrlParam) (s : State), ctrlTakes s →
    ∃ t, exec (.portReset p) s = .next t ∧
      t.pi = { (atAction 5 p s).pi with
        cause := 0
        cmask := 0
        accessKind := .none
        accessAddr := 0
        busy := false
        lastAction := .action .portReset
        lastResult := .done
        divisorCount := 0 } ∧
      t.pending = s.pending ∧ t.resetHeld = s.resetHeld ∧ t.cc = s.cc ∧
      t.mc = State.reset.mc ∧ t.du = State.reset.du ∧ t.flc = State.reset.flc ∧ t.be = State.reset.be ∧
      t.au = State.reset.au ∧ t.dc = State.reset.dc ∧
      t.mu = { State.reset.mu with lastValid := s.mu.lastValid, filters := s.mu.filters } ∧
      (∀ z, zget t.pu.zones z =
        { zget State.reset.pu.zones z with
          limits := (zget s.pu.zones z).locked
          locked := (zget s.pu.zones z).locked }) ∧
      t.pu.chargeA = ⟨0, 0⟩ ∧ t.pu.chargeB = ⟨0, 0⟩ ∧ t.pu.firstPass = false ∧
      (∀ n : Slot, memRead t.xm (0x300 + 16 * n.val) = 0) ∧
      ∀ a : Nat, (∀ n : Slot, a ≠ 0x300 + 16 * n.val) → memRead t.xm a = memRead s.xm a

/-- R100, R106, R108, R114 to R116, R180: a LINK_RESET in PARKED, ACTIVE or STARTING is DONE at once, with no
CTRL_DONE: every node record becomes UNKNOWN and the MU and the AU hold UNKNOWN for every node; in PARKED the link does
nothing, and in ACTIVE and STARTING a break begins at once, or after the exchange, break or preamble in flight. The
channels are then judged with their nodes UNKNOWN: each zone with a valid measurement keeps it as its last valid one;
in ACTIVE the degraded flags are those of the measurements, and one that is set anew raises FAULT (bit 3); and a MELT
whose evaporator test holds goes to DRIP. Nothing else changes. -/
def Obligations.LinkResetForgetsTheNodes : Prop :=
  ∀ (p : CtrlParam) (s : State), ctrlTakes s →
    ((s.mc.state = .parked ∨ s.mc.state = .active) ∧ s.pi.busy = false) ∨ s.mc.state = .starting →
    ∃ t, exec (.linkReset p) s = .next t ∧
      t = { atAction 6 p s with
        pi := { (answered .linkReset .done (atAction 6 p s)).pi with cause := t.pi.cause }
        flc := { s.flc with nodes := t.flc.nodes, work := t.flc.work, after := t.flc.after }
        mu := { s.mu with channels := t.mu.channels, lastValid := t.mu.lastValid, degraded := t.mu.degraded }
        au := { s.au with acts := t.au.acts }
        dc := { s.dc with run := t.dc.run } } ∧
      (∀ n, t.flc.nodes.get n = ⟨.unknown, 0, 0, none⟩) ∧
      (∀ k, t.mu.channels.get k = { s.mu.channels.get k with node := .unknown }) ∧
      (∀ a, t.au.acts.get a = { s.au.acts.get a with node := .unknown }) ∧
      (∀ z, zget t.mu.lastValid z = (match measurement t z with | some m => some m | none => zget s.mu.lastValid z) ∧
        zget t.mu.degraded z = if s.mc.state = .active then (measurement t z).isNone else zget s.mu.degraded z) ∧
      (let lost := s.mc.state = .active ∧ ∃ z, measurement t z = none ∧ zget s.mu.degraded z = false
      (lost → t.pi.cause = s.pi.cause ||| 0x08) ∧ (¬ lost → t.pi.cause = s.pi.cause)) ∧
      t.dc.run = (if s.dc.run.state = .melt ∧ evaporatorClear t = true then
        { s.dc.run with state := .drip, phaseTimer := 0 } else s.dc.run) ∧
      (s.mc.state = .parked → t.flc.work = s.flc.work ∧ t.flc.after = s.flc.after) ∧
      (s.mc.state ≠ .parked → s.flc.work = .waiting ∨ s.flc.work = .due →
        t.flc.work = .brk ∧ t.flc.after = .go) ∧
      (s.mc.state ≠ .parked → s.flc.work ≠ .waiting → s.flc.work ≠ .due → s.flc.work ≠ .off →
        t.flc.work = s.flc.work ∧ t.flc.after = .brk)

/-- R160, R161: a CLEAR_FAULTS with BUSY clear is DONE at once in every device state, with no CTRL_DONE: every latch
with its kind is cleared, so every path flag is what the configuration enables, and the tracking counts, feedback, node
states and commands stay; nothing else changes. -/
def Obligations.ClearFaultsClearsEveryLatch : Prop :=
  ∀ (p : CtrlParam) (s : State), ctrlTakes s → s.pi.busy = false →
    ∃ t, exec (.clearFaults p) s = .next t ∧
      t = { answered .clearFaults .done (atAction 7 p s) with au := t.au } ∧
      (∀ a, t.au.acts.get a = { s.au.acts.get a with latch := none }) ∧
      (∀ z, zget t.au.paths z =
        match s.mc.config with
        | some c => (zget c.zones z).paths
        | none => ⟨false, false, false, false, false, false⟩)

/-- R175: a LOCK_LIMITS in PARKED or ACTIVE is DONE at once, with no CTRL_DONE. Each zone whose bit of the mask is set
and that is not yet locked records its limits in force; every other zone stays as it stands, and nothing else changes.
-/
def Obligations.LockLimitsLocksTheNamedZones : Prop :=
  ∀ (p : CtrlParam) (s : State), ctrlTakes s → s.pi.busy = false →
    s.mc.state = .parked ∨ s.mc.state = .active →
    ∃ t, exec (.lockLimits p) s = .next t ∧
      t = { answered .lockLimits .done (atAction 8 p s) with pu := { s.pu with zones := t.pu.zones } } ∧
      ∀ z, zget t.pu.zones z =
        if p.toNat.testBit (zoneNumber z) = true ∧ (zget s.pu.zones z).locked = none then
          { zget s.pu.zones z with locked := (zget s.pu.zones z).limits }
        else zget s.pu.zones z

/-- R75, R78, R79, R14: a TIME_SET whose six fields name a time of the calendar sets the clock to it, the divider to 0
and the flag to SET; a TIME_NUDGE of −30..30 seconds that stays in the calendar moves the time by it and keeps the
divider and the flag. Each begins a clock page rewrite with the new values, or has one follow the one in flight, and a
nudge forward across a minute boundary counts one minute event. A field out of its range, or a nudge out of its range
or out of the calendar, is answered BAD_TIME and changes nothing. A schedule evaluation follows with the new time, a
minute event's after a crossing nudge, and what it does is all else that changes. Days are numbered on from 2000-01-01
over the months' lengths, a February of 29 days in a year divisible by 4. The model's choices: the rewrite of a
crossing nudge shows the minute event count that the nudge leaves (notes/assumptions/52.md), and a rewrite that falls
due while one already follows the one in flight is one with it (56). -/
def Obligations.ClockActionsMoveTheClock : Prop :=
  (∀ (p : CtrlParam) (s : State) (y mo d h mi se : Nat), ctrlTakes s → s.pi.busy = false →
    [0x220, 0x221, 0x222, 0x223, 0x224, 0x225].map (fun k => (memRead s.xm k).toNat) = [y, mo, d, h, mi, se] →
    (2000 ≤ y ∧ y ≤ 2099 ∧ 1 ≤ mo ∧ mo ≤ 12 ∧ 1 ≤ d ∧ d ≤ lastDay y mo ∧ h ≤ 23 ∧ mi ≤ 59 ∧ se ≤ 59 →
      ∃ t, exec (.timeSet p) s = .next t ∧ t.cc.time = dayNumber y mo d * 86400 + h * 3600 + mi * 60 + se ∧
        t.cc.divider = 0 ∧ t.cc.set = true ∧ t.cc.minuteEvents = s.cc.minuteEvents ∧ t.cc.page = s.cc.page ∧
        t = scheduleEvaluation false { answered .timeSet .done (atAction 9 p s) with cc := t.cc } ∧
        (s.cc.rewrite = none → t.cc.rewrite = some (clockPageWords t.cc) ∧ t.cc.rewriteDue = s.cc.rewriteDue) ∧
        (s.cc.rewrite ≠ none → t.cc.rewrite = s.cc.rewrite ∧ t.cc.rewriteDue = true) ∧
        t.pi.lastAction = .action .timeSet ∧ t.pi.lastResult = .done ∧ t.xm = s.xm ∧ t.flc = s.flc ∧
        t.mc.state = s.mc.state ∧ t.mc.config = s.mc.config ∧ t.be.timer = s.be.timer) ∧
    (¬ (2000 ≤ y ∧ y ≤ 2099 ∧ 1 ≤ mo ∧ mo ≤ 12 ∧ 1 ≤ d ∧ d ≤ lastDay y mo ∧ h ≤ 23 ∧ mi ≤ 59 ∧ se ≤ 59) →
      exec (.timeSet p) s = .next (answered .timeSet .badTime (atAction 9 p s)))) ∧
  (∀ (p : CtrlParam) (s : State) (n : Int), ctrlTakes s → s.pi.busy = false → n = (memRead s.xm 0x226).toInt →
    (-30 ≤ n ∧ n ≤ 30 ∧ 0 ≤ (s.cc.time : Int) + n ∧ (s.cc.time : Int) + n < 3155760000 →
      ∃ t, exec (.timeNudge p) s = .next t ∧ (t.cc.time : Int) = s.cc.time + n ∧
        t.cc.divider = s.cc.divider ∧ t.cc.set = s.cc.set ∧ t.cc.page = s.cc.page ∧
        (let crosses := decide (s.cc.time / 60 < t.cc.time / 60)
        t = { scheduleEvaluation crosses
            { answered .timeNudge .done (atAction 10 p s) with
              cc := { s.cc with time := t.cc.time, minuteEvents := t.cc.minuteEvents } } with cc := t.cc }) ∧
        t.cc.minuteEvents = (if s.cc.time / 60 < t.cc.time / 60 then s.cc.minuteEvents + 1 else s.cc.minuteEvents) ∧
        (s.cc.rewrite = none → t.cc.rewrite = some (clockPageWords t.cc) ∧ t.cc.rewriteDue = s.cc.rewriteDue) ∧
        (s.cc.rewrite ≠ none → t.cc.rewrite = s.cc.rewrite ∧ t.cc.rewriteDue = true) ∧
        t.pi.lastAction = .action .timeNudge ∧ t.pi.lastResult = .done ∧ t.xm = s.xm ∧ t.flc = s.flc ∧
        t.mc.state = s.mc.state ∧ t.mc.config = s.mc.config ∧ t.be.timer = s.be.timer) ∧
    (¬ (-30 ≤ n ∧ n ≤ 30 ∧ 0 ≤ (s.cc.time : Int) + n ∧ (s.cc.time : Int) + n < 3155760000) →
      exec (.timeNudge p) s = .next (answered .timeNudge .badTime (atAction 10 p s)))) ∧
  (dayNumber 2000 1 1 = 0 ∧
   ∀ y mo d : Nat, 2000 ≤ y → y ≤ 2099 → 1 ≤ mo → mo ≤ 12 → 1 ≤ d →
     lastDay y mo =
       (if mo = 2 then if y % 4 = 0 then 29 else 28 else if mo = 4 ∨ mo = 6 ∨ mo = 9 ∨ mo = 11 then 30 else 31) ∧
     dayNumber y mo (d + 1) = dayNumber y mo d + 1 ∧
     (mo < 12 → dayNumber y (mo + 1) 1 = dayNumber y mo (lastDay y mo) + 1) ∧
     dayNumber (y + 1) 1 1 = dayNumber y 12 31 + 1)

/-! ## The slot actions (chapter 3) -/

/-- R35, R36, R54: in UNCONFIGURED every nonzero control write is answered REFUSED_MODE; otherwise a value above 4 is
answered UNKNOWN_ACTION, an action on a slot in a state that does not take it REFUSED_STATE, and an AMEND on a
PROCEDURE REFUSED_KIND: the control word is stored, the result item is written, and nothing else changes. A POST whose
body fails a check ends its slot at once with outcome REFUSED and the code of the first check that fails, and raises
SLOT_END (bit 0); nothing else changes. The checks are those of R36's table, in its order, over the fields that the
body's kind uses: kind, zone, class, combine, start, end, the stamps, the clock-set flag, the past, and a run in
progress. -/
def Obligations.SlotActionsAreRefusedInOrder : Prop :=
  (∀ (n : Slot) (s : State), slotTakes n s →
     (s.mc.state = .unconfigured →
       (∀ c k, (c, k) ∈ [(Instr.post n, 1), (.amend n, 2), (.retract n, 3), (.release n, 4)] →
         exec c s = .next
           (slotChanged n { slotRec s n with result := .refusedMode } (atSlotAction n (BitVec.ofNat 32 k) s))) ∧
       ∀ v : Word, 4 < v.toNat → exec (.slotUnknownAction n v) s = .next
         (slotChanged n { slotRec s n with result := .refusedMode } (atSlotAction n v s))) ∧
     (s.mc.state ≠ .unconfigured →
       (∀ v : Word, 4 < v.toNat → exec (.slotUnknownAction n v) s = .next
         (slotChanged n { slotRec s n with result := .unknownAction } (atSlotAction n v s))) ∧
       ((slotRec s n).state ≠ .empty → exec (.post n) s = .next
         (slotChanged n { slotRec s n with result := .refusedState } (atSlotAction n 1 s))) ∧
       ((slotRec s n).state = .empty ∨ (slotRec s n).state = .ended →
         exec (.amend n) s = .next
           (slotChanged n { slotRec s n with result := .refusedState } (atSlotAction n 2 s)) ∧
         exec (.retract n) s = .next
           (slotChanged n { slotRec s n with result := .refusedState } (atSlotAction n 3 s))) ∧
       ((slotRec s n).state ≠ .ended → exec (.release n) s = .next
         (slotChanged n { slotRec s n with result := .refusedState } (atSlotAction n 4 s))) ∧
       (∀ w, (slotRec s n).state = .pending ∨ (slotRec s n).state = .waiting ∨ (slotRec s n).state = .active →
         (slotRec s n).work = some w → w.kind = .procedure →
         exec (.amend n) s = .next
           (slotChanged n { slotRec s n with result := .refusedKind } (atSlotAction n 2 s))))) ∧
  (∀ (n : Slot) (s : State) (code : SlotResult), slotTakes n s → s.mc.state ≠ .unconfigured →
     (slotRec s n).state = .empty → postJudgment s (bodyOf s.xm n) = .error code →
     ∃ t, exec (.post n) s = .next t ∧
       t = { atSlotAction n 1 s with
         pi := { (atSlotAction n 1 s).pi with cause := s.pi.cause ||| 0x01 }
         du := t.du } ∧
       slotRec t n = { slotRec s n with
         state := .ended
         reason := none
         outcome := some .refused
         result := code
         work := none } ∧
       (∀ m, m ≠ n → slotRec t m = slotRec s m) ∧
       ∀ z, stackOf t z = (stackOf s z).filter (· != n) ∧ waitOf t z = (waitOf s z).filter (· != n)) ∧
  (∀ (s : State) (b : Body),
    let now := s.cc.time / 60
    let window := match s.mc.config with
      | some c => if c.catchWindow = 0 then 1 else c.catchWindow
      | none => 1
    let setpoint := b.kind = 0
    let reach := b.kind = 1
    let procedure := b.kind = 2
    let code : Option SlotResult :=
      if 2 < b.kind ∨ (procedure ∧ b.procedure ≠ 0) then some .badKind
      else if ¬ procedure ∧ 4 < b.zone then some .badZone
      else if ¬ procedure ∧ 2 < b.cls then some .badClass
      else if (setpoint ∧ 3 < b.combine) ∨ (reach ∧ b.combine ≠ 0) then some .badCombine
      else if ¬ reach ∧ (4 < b.startCode ∨
          (b.startCode = 2 ∧ (23 < b.hour ∨ 59 < b.minute ∨ b.weekdays = 0)) ∨
          (b.startCode = 4 ∧ 2 < b.line)) then some .badStart
      else if setpoint ∧ 3 < b.endCode then some .badEnd
      else if (¬ reach ∧ b.startCode = 1 ∧ 52595999 < b.startParam) ∨
          (setpoint ∧ b.endCode = 1 ∧ 52595999 < b.endParam) ∨ (reach ∧ 52595999 < b.deadline) then some .badStamp
      else if s.cc.set = false ∧ (reach ∨ b.startCode = 1 ∨ b.startCode = 2) then some .unsetClock
      else if (reach ∧ b.deadline < now) ∨
          (¬ reach ∧ b.startCode = 1 ∧ b.startParam + window < now) then some .past
      else if procedure ∧ s.dc.run.state ≠ .idle then some .busy
      else none
    postJudgment s b =
      match code with
      | some e => .error e
      | none => .ok (if setpoint then .setpoint else if reach then .reach else .procedure))

/-- R31, R37, R43 to R49, R52, R53, R56, R81 to R88: becoming due. A POST that is taken evaluates its start at once.
Where the start is not met the slot stays PENDING and nothing else changes. A SETPOINT or REACH whose end has come ends
at once: EXPIRED, REACHED or LATE, with SLOT_END (bit 0); of a DAILY SETPOINT the run ends EXPIRED and the slot stays
PENDING. Any other becomes due, with the present stamp as its due stamp and the values in use. Outside ACTIVE it waits
with reason PARKED, and in PARKED one that carries WAKE asserts the wake line, starts the wake timer and raises WAKE
(bit 4). In ACTIVE, with a free place and nobody waiting, it is placed in its zone's stack, below the higher classes
and above the rest; where that is full it displaces the topmost entry of the lowest class there, if that class is below
its own: the displaced one waits with reason STACK_FULL and its SETTLED count at 0; otherwise the new one waits so.
What waits stands by class, due stamp and slot. At a schedule evaluation a PENDING directive becomes due when its start
is met, and goes the same ways: alone in its zone, with no end there, as after a POST, and among several it is placed
or waits. One whose start is not met stays as it is, but for the AFTER count and the lead that a minute event renews. A
PROCEDURE ends REFUSED with NOT_ACTIVE outside ACTIVE, and with BUSY in it while a run is in progress, that of a lower
slot's PROCEDURE started at this evaluation included, and else starts its run. Besides the slots, an evaluation changes
the wake line, the run, and SLOT_END and WAKE alone. The lead is the distance from the measurement to the target, or
from the last valid one, times the lag, in minutes rounded up, plus the margin, at most 720, and 720 without either.
The model's choice: of PROCEDUREs that become due together the lowest slot's is handed on first
(notes/assumptions/57.md). -/
def Obligations.PostEvaluatesItsStartAtOnce : Prop :=
  (∀ (n : Slot) (s : State) (k : Kind), slotTakes n s → (slotRec s n).state = .empty → s.mc.state ≠ .unconfigured →
    postJudgment s (bodyOf s.xm n) = .ok k →
    (s.mc.state = .active → ∀ z, waitOf s z = [] ∨ 4 ≤ (stackOf s z).length) →
    let w := workingOf s k (bodyOf s.xm n)
    (¬ startComes false s none w → exec (.post n) s = .next (slotChanged n (posted w) (atSlotAction n 1 s))) ∧
    (startComes false s none w → endHasCome s w → (∀ z, n ∉ stackOf s z ∧ n ∉ waitOf s z) →
      ∃ t, exec (.post n) s = .next t ∧
        t = { atSlotAction n 1 s with pi := { (atSlotAction n 1 s).pi with cause := t.pi.cause }, du := t.du } ∧
        (∀ m, m ≠ n → slotRec t m = slotRec s m) ∧ t.du.stack = s.du.stack ∧ t.du.wait = s.du.wait ∧
        ((∀ hm days, w.start ≠ .daily hm days) →
          t.pi.cause = s.pi.cause ||| 0x01 ∧
          slotRec t n = { SlotRec.empty with
            state := .ended
            outcome := some (if k = .setpoint then .expired else if metAtPost s w = .met then .reached else .late)
            result := .done
            due := some (s.cc.time / 60)
            met := metAtPost s w }) ∧
        (∀ hm days, w.start = .daily hm days →
          t.pi.cause = s.pi.cause ∧
          slotRec t n = { posted w with
            runCount := 1
            lastRun := some .expired
            firedOn := some (s.cc.time / 60 / 1440) }))) ∧
  (∀ (n : Slot) (s : State) (c : Cfg) (k : Kind), slotTakes n s → (slotRec s n).state = .empty →
    s.mc.config = some c → s.mc.state ≠ .unconfigured → postJudgment s (bodyOf s.xm n) = .ok k → k ≠ .procedure →
    (∀ z, n ∉ stackOf s z ∧ n ∉ waitOf s z) →
    let w := workingOf s k (bodyOf s.xm n)
    startComes false s none w → ¬ endHasCome s w →
    (s.mc.state ≠ .active →
      ∃ t, exec (.post n) s = .next t ∧
        t = { atSlotAction n 1 s with
          pi := { (atSlotAction n 1 s).pi with cause := t.pi.cause }
          mc := t.mc
          du := t.du } ∧
        slotRec t n = { posted w with
          state := .waiting
          reason := some .parked
          due := some (s.cc.time / 60)
          met := metAtPost s w } ∧
        (∀ m, m ≠ n → slotRec t m = slotRec s m) ∧
        (∀ z, stackOf t z = stackOf s z) ∧
        (∀ z, (waitOf t z).filter (· != n) = waitOf s z) ∧ n ∈ waitOf t w.zone ∧
        (directiveLists s → standsInWaitList t w.zone n) ∧
        (if w.wake = true ∧ s.mc.state = .parked then
          t.mc = { s.mc with wake := true, wakeTimer := some (c.wakeTimeout * 60000) } ∧
            t.pi.cause = s.pi.cause ||| 0x10
        else t.mc = s.mc ∧ t.pi.cause = s.pi.cause)) ∧
    (s.mc.state = .active → (∀ z, waitOf s z = []) → (stackOf s w.zone).length < 4 →
      ∃ t, exec (.post n) s = .next t ∧
        t = { atSlotAction n 1 s with du := t.du } ∧
        slotRec t n = { posted w with
          state := .active
          due := some (s.cc.time / 60)
          placed := true
          met := metAtPost s w } ∧
        (∀ m, m ≠ n → slotRec t m = slotRec s m) ∧
        (∀ z, waitOf t z = []) ∧
        (∀ z, (stackOf t z).filter (· != n) = stackOf s z) ∧ n ∈ stackOf t w.zone ∧
        (directiveLists s → standsInStack t w.zone n) ∧
        (∀ z, z ≠ w.zone → stackOf t z = stackOf s z))) ∧
  (∀ (n : Slot) (s : State) (k : Kind), slotTakes n s → (slotRec s n).state = .empty → s.mc.state = .active →
    postJudgment s (bodyOf s.xm n) = .ok k → k ≠ .procedure →
    (∀ z, n ∉ stackOf s z) → (∀ z, waitOf s z = []) →
    let w := workingOf s k (bodyOf s.xm n)
    startComes false s none w → ¬ endHasCome s w →
    4 ≤ (stackOf s w.zone).length → (stackOf s w.zone).Nodup →
    ∃ t, exec (.post n) s = .next t ∧ t = { atSlotAction n 1 s with du := t.du } ∧
      (∀ above v below, stackOf s w.zone = above ++ v :: below →
        (∀ j ∈ above, slotRank s j < slotRank s v) → (∀ j ∈ below, slotRank s j ≤ slotRank s v) →
        classRank w.cls < slotRank s v →
        slotRec t n = { posted w with
          state := .active
          due := some (s.cc.time / 60)
          placed := true
          met := metAtPost s w } ∧
        slotRec t v = waitingRecord .stackFull (slotRec s v) ∧
        (∀ m, m ≠ n → m ≠ v → slotRec t m = slotRec s m) ∧
        n ∈ stackOf t w.zone ∧ (stackOf t w.zone).filter (· != n) = above ++ below ∧
        (directiveLists s → standsInStack t w.zone n) ∧
        (∀ z, z ≠ w.zone → stackOf t z = (stackOf s z).filter (· != v)) ∧ waitOf t w.zone = [v]) ∧
      ((∀ j ∈ stackOf s w.zone, slotRank s j ≤ classRank w.cls) →
        slotRec t n = { posted w with
          state := .waiting
          reason := some .stackFull
          due := some (s.cc.time / 60)
          met := metAtPost s w } ∧
        (∀ m, m ≠ n → slotRec t m = slotRec s m) ∧ (∀ z, stackOf t z = stackOf s z) ∧ waitOf t w.zone = [n])) ∧
  (∀ (minute : Bool) (s : State) (c : Cfg) (n : Slot) (w : Working), s.mc.config = some c →
    (s.mc.state = .active → ∀ z, n ∉ stackOf s z ∧ n ∉ waitOf s z) →
    (slotRec s n).state = .pending → (slotRec s n).work = some w →
    let startMet := startComes minute s (slotRec s n).firedOn w
    let endCame := endHasCome s w
    let t := scheduleEvaluation minute s
    let due := (slotRec t n).due = some ((slotRec s n).due.getD (s.cc.time / 60))
    let ended := fun o : Outcome =>
      (slotRec t n).state = .ended ∧ (slotRec t n).outcome = some o ∧ causeIsSet t .slotEnd = true ∧
        ∀ z, n ∉ stackOf t z ∧ n ∉ waitOf t z
    (¬ startMet →
      slotRec t n = { slotRec s n with
        work := some { w with
          afterCount := match w.start with
            | .after _ => if minute = true ∧ w.kind ≠ .reach then w.afterCount + 1 else w.afterCount
            | .now | .at _ | .daily _ _ | .onLine _ => w.afterCount
          lead := if minute = true ∧ w.kind = .reach then leadTime s w.zone w.target else w.lead } }) ∧
    (startMet → w.kind ≠ .procedure → ¬ endCame → s.mc.state ≠ .active →
      (slotRec t n).state = .waiting ∧ (slotRec t n).reason = some .parked ∧ due ∧ n ∈ waitOf t w.zone ∧
        (directiveLists s → standsInWaitList t w.zone n) ∧
        (w.wake = true → s.mc.state = .parked →
          t.mc.wake = true ∧ t.mc.wakeTimer = some (c.wakeTimeout * 60000) ∧ causeIsSet t .wake = true)) ∧
    (startMet → w.kind ≠ .procedure → ¬ endCame → s.mc.state = .active →
      due ∧
        (((slotRec t n).state = .active ∧ (slotRec t n).placed = true ∧ n ∈ stackOf t w.zone) ∨
          ((slotRec t n).state = .waiting ∧ (slotRec t n).reason = some .stackFull ∧ n ∈ waitOf t w.zone ∧
            (directiveLists s → standsInWaitList t w.zone n)))) ∧
    (startMet → w.kind = .reach → w.combine = .replace →
      (slotRec t n).met = if (slotRec s n).met = .notYet then metAtPost s w else (slotRec s n).met) ∧
    (startMet → w.kind = .setpoint → endCame → (∀ hm days, w.start ≠ .daily hm days) → ended .expired) ∧
    (startMet → w.kind = .reach → endCame → ended (if (slotRec t n).met = .met then .reached else .late)) ∧
    (startMet → w.kind = .procedure → s.mc.state ≠ .active → ended .refused ∧ (slotRec t n).result = .notActive) ∧
    (startMet → w.kind = .procedure → s.mc.state = .active →
      let refused := ended .refused ∧ (slotRec t n).result = .busy
      (s.dc.run.state ≠ .idle → refused) ∧
      let lower := ∃ m q, m < n ∧ (slotRec s m).state = .pending ∧ (slotRec s m).work = some q ∧
        q.kind = .procedure ∧ startComes minute s (slotRec s m).firedOn q
      (s.dc.run.state = .idle → lower → refused) ∧
      (s.dc.run.state = .idle → ¬ lower →
        (slotRec t n).state = .active ∧ due ∧
          t.dc.run = { RunRec.idle with
            state := if accepted s .hvok then .prepare else .restore
            origin := some (.slot n)
            suspendable := w.suspendable
            aborted := if accepted s .hvok then none else some .hvok })) ∧
    (startMet → w.kind ≠ .procedure → ¬ endCame → s.mc.state = .active → startsAlone minute s n w →
      (∀ z i, z ≠ w.zone → i ∈ stackOf s z ∨ i ∈ waitOf s z → i ∉ stackOf s w.zone ∧ i ∉ waitOf s w.zone) →
      let stack := stackOf s w.zone
      (stack.length < 4 → waitOf s w.zone = [] →
        (slotRec t n).state = .active ∧ (slotRec t n).placed = true ∧ n ∈ stackOf t w.zone ∧
          (stackOf t w.zone).filter (· != n) = stack ∧ waitOf t w.zone = [] ∧
          (directiveLists s → standsInStack t w.zone n)) ∧
      (4 ≤ stack.length → stack.Nodup → (∀ i ∈ stack, i ∉ waitOf s w.zone) →
        (∀ above v below, stack = above ++ v :: below →
          (∀ j ∈ above, slotRank s j < slotRank s v) → (∀ j ∈ below, slotRank s j ≤ slotRank s v) →
          classRank w.cls < slotRank s v →
          (slotRec t n).state = .active ∧ (slotRec t n).placed = true ∧ n ∈ stackOf t w.zone ∧
            (stackOf t w.zone).filter (· != n) = above ++ below ∧
            (slotRec t v).state = .waiting ∧ (slotRec t v).reason = some .stackFull ∧
            (slotRec t v).due = (slotRec s v).due ∧ (slotRec t v).placed = (slotRec s v).placed ∧
            v ∈ waitOf t w.zone ∧ (waitOf t w.zone).filter (· != v) = waitOf s w.zone ∧
            (directiveLists s → standsInStack t w.zone n ∧ standsInWaitList t w.zone v)) ∧
        ((∀ j ∈ stack, slotRank s j ≤ classRank w.cls) →
          (slotRec t n).state = .waiting ∧ (slotRec t n).reason = some .stackFull ∧ stackOf t w.zone = stack ∧
            n ∈ waitOf t w.zone ∧ (waitOf t w.zone).filter (· != n) = waitOf s w.zone ∧
            (directiveLists s → standsInWaitList t w.zone n))))) ∧
  (∀ (minute : Bool) (s : State),
    let t := scheduleEvaluation minute s
    t = { s with
      pi := { s.pi with cause := t.pi.cause }
      mc := { s.mc with wake := t.mc.wake, wakeTimer := t.mc.wakeTimer }
      du := t.du
      dc := { s.dc with run := t.dc.run } } ∧
    (∀ f, f ≠ .slotEnd → f ≠ .wake → causeIsSet t f = causeIsSet s f) ∧
    (directiveLists s → directiveLists t) ∧
    ∀ n, (slotRec s n).state = .empty ∨ (slotRec s n).state = .ended → (slotRec s n).work = none →
      (∀ z, n ∉ stackOf s z ∧ n ∉ waitOf s z) → slotRec t n = slotRec s n) ∧
  (classRank .a < classRank .b ∧ classRank .b < classRank .c ∧
    ∀ (s : State) (i : Slot) (w : Working), (slotRec s i).work = some w → slotRank s i = classRank w.cls) ∧
  (∀ (s : State) (c : Cfg) (z : Zone) (target : Int), s.mc.config = some c →
    let lead := fun m : Int =>
      min 720 (((target - m).natAbs * (zget c.zones z).lag + 59) / 60 + (zget c.zones z).leadMargin)
    leadTime s z target =
      match measurement s z, zget s.mu.lastValid z with
      | some m, _ => lead m
      | none, some m => lead m
      | none, none => 720)

/-- R33, R34, R37: the values in use. A POST reads each field of its body from the bits of the slot's words 1 to 8 that
the layout of 13.5 gives it, and its working record holds those that its kind uses: weight, alpha, half-band,
hold-after and the minutes or passes of a start or end each clamped into its range, a value in the range kept and any
other become the nearer end; the target clamped into the zone's target range of the committed configuration; the other
fields as they are read. Every counter starts at 0, and a REACH's lead is the one formed at the POST. The record that a
taken POST makes stays the slot's until the slot is ENDED. So the values in use lie in their ranges, and the target in
the zone's target range where that range is ordered. The model's choice: a field that the kind does not use stands at
0, NOW, NONE, REPLACE or absent, the zone and class of a PROCEDURE at PACK_A and A (notes/assumptions/19.md). -/
def Obligations.PostClampsTheValuesInUse : Prop :=
  (∀ (m : Memory) (n : Slot),
    let b := bodyOf m n
    let word := fun k : Nat => (memRead m (0x300 + 16 * n.val + k)).toNat
    let field := fun k hi lo : Nat => word k / 2 ^ lo % 2 ^ (hi - lo + 1)
    (b.kind = field 1 1 0 ∧ b.zone = field 1 6 4 ∧ b.cls = field 1 9 8 ∧ b.combine = field 1 14 12 ∧
      b.weight = field 1 19 16 ∧ b.alpha = field 1 23 20 ∧ (b.wake = true ↔ field 1 24 24 = 1) ∧
      (b.suspendable = true ↔ field 1 25 25 = 1) ∧ b.procedure = field 1 29 28) ∧
    (b.target = if field 2 15 0 < 0x8000 then (field 2 15 0 : Int) else (field 2 15 0 : Int) - 0x10000) ∧
    b.halfBand = field 2 31 16 ∧
    (b.startCode = field 3 2 0 ∧ b.line = field 3 9 8 ∧ b.hour = field 3 12 8 ∧ b.minute = field 3 21 16 ∧
      b.weekdays = field 3 30 24) ∧
    b.startParam = word 4 ∧ b.endCode = field 5 2 0 ∧ b.endParam = word 6 ∧ b.deadline = word 7 ∧
    b.holdAfter = word 8) ∧
  (∀ (s : State) (c : Cfg) (k : Kind) (b : Body), s.mc.config = some c → postJudgment s b = .ok k →
    let w := workingOf s k b
    let nearest := fun x lo hi : Nat => if x < lo then lo else if hi < x then hi else x
    w.kind = k ∧ w.durationCount = 0 ∧ w.settledCount = 0 ∧ w.afterCount = 0 ∧ w.retracted = false ∧
    (k ≠ .procedure →
      [Zone.packA, .packB, .drive, .cab, .berth][b.zone]? = some w.zone ∧ [Class.a, .b, .c][b.cls]? = some w.cls ∧
      w.weight = nearest b.weight 1 15 ∧ w.wake = b.wake ∧ w.suspendable = false ∧
      (let l := (zget c.zones w.zone).limits
      w.target = if b.target < l.tmin then l.tmin else if l.tmax < b.target then l.tmax else b.target) ∧
      (w.combine = .replace ∨ w.combine = .blend → w.halfBand = nearest b.halfBand 0 100) ∧
      (w.combine = .floor ∨ w.combine = .ceiling → w.halfBand = 0) ∧
      w.alpha = if w.combine = .blend then some (nearest b.alpha 1 15) else none) ∧
    (k = .setpoint →
      [Combine.replace, .blend, .floor, .ceiling][b.combine]? = some w.combine ∧
      [End.none, .at b.endParam, .duration (nearest b.endParam 1 10080), .settled (nearest b.endParam 1 60)][b.endCode]? =
        some w.ending ∧
      w.deadline = 0 ∧ w.holdAfter = 0 ∧ w.lead = 0) ∧
    (k = .reach →
      w.combine = .replace ∧ w.start = .now ∧ w.ending = .none ∧ w.deadline = b.deadline ∧
        w.holdAfter = nearest b.holdAfter 0 240 ∧ w.lead = leadTime s w.zone w.target) ∧
    (k ≠ .reach →
      [Start.now, .at b.startParam, .daily (b.hour * 60 + b.minute) b.weekdays, .after (nearest b.startParam 1 1440),
          .onLine ([Line.hvok, .clvl, .chgp].getD b.line .hvok)][b.startCode]? =
        some w.start) ∧
    (k = .procedure →
      w.zone = .packA ∧ w.cls = .a ∧ w.weight = 0 ∧ w.combine = .replace ∧ w.alpha = none ∧ w.target = 0 ∧
        w.halfBand = 0 ∧ w.ending = .none ∧ w.deadline = 0 ∧ w.holdAfter = 0 ∧ w.wake = false ∧
        w.suspendable = b.suspendable ∧ w.lead = 0)) ∧
  (∀ (n : Slot) (s : State) (k : Kind), slotTakes n s → (slotRec s n).state = .empty → s.mc.state ≠ .unconfigured →
    postJudgment s (bodyOf s.xm n) = .ok k →
    ∃ t, exec (.post n) s = .next t ∧ (slotRec t n).state ≠ .empty ∧
      ((slotRec t n).state ≠ .ended →
        (slotRec t n).result = .done ∧ (slotRec t n).work = some (workingOf s k (bodyOf s.xm n)))) ∧
  (∀ (s : State) (k : Kind) (b : Body), k ≠ .procedure →
    let w := workingOf s k b
    1 ≤ w.weight ∧ w.weight ≤ 15 ∧ 0 ≤ w.halfBand ∧ w.halfBand ≤ 100 ∧ w.holdAfter ≤ 240 ∧
      (∀ a, w.alpha = some a → 1 ≤ a ∧ a ≤ 15 ∧ w.combine = .blend) ∧
      (∀ m, w.ending = .duration m → 1 ≤ m ∧ m ≤ 10080) ∧
      (∀ m, w.ending = .settled m → 1 ≤ m ∧ m ≤ 60) ∧
      (∀ m, w.start = .after m → 1 ≤ m ∧ m ≤ 1440) ∧
      w.lead ≤ 720 ∧
      ∀ c, s.mc.config = some c →
        (zget c.zones w.zone).limits.tmin ≤ (zget c.zones w.zone).limits.tmax →
        (zget c.zones w.zone).limits.tmin ≤ w.target ∧ w.target ≤ (zget c.zones w.zone).limits.tmax)

/-- R38: an AMEND on a PENDING, WAITING or ACTIVE SETPOINT or REACH is DONE: each of the target, half-band and weight
whose amend field is present is clamped and replaces the value in use, a new target or half-band sets the SETTLED count
to 0, and everything else stays, a field that is absent included. The model's choices: a new target is clamped to the
target range of the configuration in force at the AMEND (notes/assumptions/23.md), and a FLOOR or CEILING takes a new
half-band too, which it never uses (R38; notes/assumptions/18.md). -/
def Obligations.AmendReplacesThePresentFields : Prop :=
  ∀ (n : Slot) (s : State) (w : Working) (c : Cfg), slotTakes n s → s.mc.config = some c →
    s.mc.state ≠ .unconfigured →
    (slotRec s n).state = .pending ∨ (slotRec s n).state = .waiting ∨ (slotRec s n).state = .active →
    (slotRec s n).work = some w → w.kind ≠ .procedure →
    let w10 := memRead s.xm (0x300 + 16 * n.val + 10)
    let w11 := memRead s.xm (0x300 + 16 * n.val + 11)
    let noTarget := w10.toNat % 65536 = 0x8000
    let noBand := w10.toNat / 65536 = 0xFFFF
    let noWeight := w11.toNat % 256 = 0xFF
    exec (.amend n) s = .next
      (slotChanged n
        { slotRec s n with
          result := .done
          work := some
            { w with
              target :=
                if noTarget then w.target
                else
                  clamp (signedOf 16 (w10.toNat % 65536)) (zget c.zones w.zone).limits.tmin
                    (zget c.zones w.zone).limits.tmax
              halfBand := if noBand then w.halfBand else ((min (w10.toNat / 65536) 100 : Nat) : Int)
              weight := if noWeight then w.weight else max 1 (min (w11.toNat % 256) 15)
              settledCount := if noTarget ∧ noBand then w.settledCount else 0 } }
        (atSlotAction n 2 s))

/-- R39, R40, R48: a RETRACT on a PENDING or WAITING directive, or on an ACTIVE SETPOINT or REACH, ends it RETRACTED at
once and raises SLOT_END (bit 0); in ACTIVE the head of the wait list of the stack it leaves moves into that stack, as
the entry placed last: ACTIVE, with the placed item set, no reason, a SETTLED count of 0, and its due stamp and every
other item kept; every other slot keeps its record and every other list its order. On an ACTIVE PROCEDURE whose run is
in progress the slot stays ACTIVE with result DONE and the run is aborted with cause RETRACT as R186 says. -/
def Obligations.RetractEndsOrAborts : Prop :=
  ∀ (n : Slot) (s : State) (w : Working), slotTakes n s → s.mc.state ≠ .unconfigured → (slotRec s n).work = some w →
    ((slotRec s n).state = .pending ∨ (slotRec s n).state = .waiting ∨
        ((slotRec s n).state = .active ∧ w.kind ≠ .procedure) →
      ∃ t, exec (.retract n) s = .next t ∧
        t = { atSlotAction n 3 s with
          pi := { (atSlotAction n 3 s).pi with cause := s.pi.cause ||| 0x01 }
          du := t.du } ∧
        slotRec t n = { slotRec s n with
          state := .ended
          reason := none
          outcome := some .retracted
          result := .done
          work := none } ∧
        (∀ z, n ∉ stackOf t z ∧ n ∉ waitOf t z) ∧
        (s.mc.state ≠ .active →
          (∀ m, m ≠ n → slotRec t m = slotRec s m) ∧
          ∀ z, stackOf t z = (stackOf s z).filter (· != n) ∧ waitOf t z = (waitOf s z).filter (· != n)) ∧
        (∀ z h l, s.mc.state = .active → n ∈ stackOf s z → (stackOf s z).length ≤ 4 → waitOf s z = h :: l →
          h ≠ n → (slotRec t h).state = .active) ∧
        (∀ m, m ≠ n → (∀ z, m ∉ waitOf s z) ∨ (∀ z, m ∉ stackOf t z) → slotRec t m = slotRec s m) ∧
        (s.mc.state = .active → (∀ z, (stackOf s z).Nodup) → (∀ z, waitOf s z = [] ∨ 4 ≤ (stackOf s z).length) →
          (∀ y z i, i ∈ waitOf s y → i ∉ stackOf s z) → (∀ y z, n ∈ stackOf s y → n ∈ stackOf s z → y = z) →
          ∀ m, m ≠ n → (∀ z h l, n ∈ stackOf s z → waitOf s z = h :: l → m ≠ h) → slotRec t m = slotRec s m) ∧
        (s.mc.state = .active → directiveLists s → ∀ z,
          refilledFrom s t z ((stackOf s z).filter (· != n)) ((waitOf s z).filter (· != n)) ∧
            ∀ h l, n ∈ stackOf s z → waitOf s z = h :: l →
              slotRec t h = placedRecord (slotRec s h) ∧ waitOf t z = l ∧ standsInStack t z h)) ∧
    ((slotRec s n).state = .active → w.kind = .procedure → s.dc.run.origin = some (.slot n) →
      s.dc.run.state ≠ .idle →
      ∃ t, exec (.retract n) s = .next t ∧
        t = { atSlotAction n 3 s with du := t.du, dc := { s.dc with run := t.dc.run } } ∧
        slotRec t n = { slotRec s n with result := .done, work := some { w with retracted := true } } ∧
        (∀ m, m ≠ n → slotRec t m = slotRec s m) ∧ t.du.stack = s.du.stack ∧ t.du.wait = s.du.wait ∧
        t.dc.run = abortedBy .retract s.dc.run)

/-- R41: a RELEASE on an ENDED slot makes it EMPTY with result DONE and every other status item at its "0" value; its
bit leaves the ENDED map; the body and amend words, the other slots and every other block are as before, and a body
word is stored again: the first by the transaction's next word, any by another transaction's first. -/
def Obligations.ReleaseEmptiesTheSlot : Prop :=
  ∀ (n : Slot) (s : State), slotTakes n s → s.mc.state ≠ .unconfigured → (slotRec s n).state = .ended →
    ∃ t, exec (.release n) s = .next t ∧
      t = slotChanged n
        { state := .empty
          reason := none
          outcome := none
          result := .done
          due := none
          placed := false
          met := .notYet
          runCount := 0
          lastRun := none
          firedOn := none
          suspendCount := 0
          work := none }
        (atSlotAction n 4 s) ∧
      (summaryWord t .ended).getLsbD n.val = false ∧
      (∀ k, 1 ≤ k → k ≤ 11 → memRead t.xm (0x300 + 16 * n.val + k) = memRead s.xm (0x300 + 16 * n.val + k)) ∧
      (∀ v, exec (.hostWriteWord (BitVec.ofNat 16 (0x300 + 16 * n.val + 1)) v) t = .next
        { accessed .write (BitVec.ofNat 16 (0x300 + 16 * n.val + 1)) 0 t with
          xm := memWrite t.xm (0x300 + 16 * n.val + 1) v }) ∧
      ∀ k v, 1 ≤ k → k ≤ 9 →
        let a : Addr := BitVec.ofNat 16 (0x300 + 16 * n.val + k)
        let u : State := { t with pi := { t.pi with port := .command } }
        exec (.hostWriteWord a v) u = .next
          { accessed .write a 0 u with xm := memWrite t.xm (0x300 + 16 * n.val + k) v }

/-! ## The clock, the schedule and the wake line (chapters 2, 3, 5) -/

/-- R75, R76, R77, R80: a second rollover advances the calendar by one second and sets the divider to 0; past
2099-12-31 23:59:59 the calendar starts again and is UNSET; the minute event count grows by 1 exactly where the new
second is 0; and a clock page rewrite begins with the new values, or follows the one in flight. Where no minute ends,
nothing but the clock changes; where one ends, all else that changes is what the schedule evaluation of a minute event
does. Short of the divider's end, 32,768 cycles, as behind a TIME_SET, there is no rollover (R77). The model's choices:
the rewrite shows the new minute event count (notes/assumptions/27.md), a rewrite that falls due while one already
follows the one in flight is one with it (56), and the divider counts in thousandths of a cycle, 32,768 of them in a
millisecond (2). -/
def Obligations.SecondRolloverAdvancesTheCalendar : Prop :=
  (∀ s : State, 32768000 ≤ s.cc.divider → ∃ t, exec .secondRollover s = .next t ∧
    t.cc.divider = 0 ∧ t.cc.page = s.cc.page ∧
    (s.cc.time + 1 < 3155760000 → t.cc.time = s.cc.time + 1 ∧ t.cc.set = s.cc.set) ∧
    (3155760000 ≤ s.cc.time + 1 → t.cc.time = 0 ∧ t.cc.set = false) ∧
    t.cc.minuteEvents = (if t.cc.time % 60 = 0 then s.cc.minuteEvents + 1 else s.cc.minuteEvents) ∧
    (s.cc.rewrite = none → t.cc.rewrite = some (clockPageWords t.cc) ∧ t.cc.rewriteDue = s.cc.rewriteDue) ∧
    (s.cc.rewrite ≠ none → t.cc.rewrite = s.cc.rewrite ∧ t.cc.rewriteDue = true) ∧
    (t.cc.time % 60 ≠ 0 → t = { s with cc := t.cc }) ∧
    (t.cc.time % 60 = 0 →
      t = { scheduleEvaluation true
          { s with
            cc := { s.cc with
              time := t.cc.time
              divider := 0
              set := t.cc.set
              minuteEvents := s.cc.minuteEvents + 1 } } with cc := t.cc }) ∧
    t.xm = s.xm ∧ t.flc = s.flc ∧ t.mc.state = s.mc.state ∧ t.mc.config = s.mc.config ∧ t.be.timer = s.be.timer) ∧
  (∀ s : State, s.cc.divider < 32768000 → exec .secondRollover s = .next s)

/-- R44, R48 to R55, R81: ends. At a schedule evaluation a due SETPOINT whose start is not DAILY goes to ENDED,
COMPLETED if it was ever placed and EXPIRED otherwise, when the present stamp has reached its AT end, and when its
DURATION count, grown by 1 at a minute event, comes to its minutes; a due REACH whose deadline plus hold-after is
reached ends REACHED where its met item is MET and LATE otherwise, the met evaluation being made once, at the first
evaluation from the deadline on, from the measurement and the band that then stand. An end leaves every stack and wait
list and raises SLOT_END. No end is taken early: an AT end or a deadline that lies ahead, or any while the clock is not
SET, leaves the directive live, a REACH with its met item; so does an end NONE or SETTLED. A DAILY SETPOINT returns to
PENDING instead, with its run counted, the run's outcome recorded, fired-on the date of its due stamp, and the due
stamp, placed item and counts cleared, where its start is not met again at that evaluation. At a pass completion the
SETTLED count of an ACTIVE SETPOINT grows by 1 where the measurement that the pass used lies in its own band, else
becomes 0; and at its passes the directive, or its DAILY run, ends COMPLETED. In ACTIVE the places that ends free in a
zone, at a pass completion or at an evaluation that makes nothing due there, are filled from the head of its wait list.
The model's choice: the band is that of the values in use at the completion (notes/assumptions/59.md). -/
def Obligations.ReachedAtEndIsTakenAtTheEvaluation : Prop :=
  (∀ (minute : Bool) (s : State) (n : Slot) (w : Working) (stamp : Nat),
    (slotRec s n).state = .waiting ∨ (slotRec s n).state = .active →
    (slotRec s n).work = some w → w.kind = .setpoint → w.ending = .at stamp →
    (∀ hm days, w.start ≠ .daily hm days) → s.cc.set = true → stamp ≤ s.cc.time / 60 →
    let t := scheduleEvaluation minute s
    (slotRec t n).state = .ended ∧
      (slotRec t n).outcome = some (if (slotRec s n).placed then .completed else .expired) ∧
      (slotRec t n).work = none ∧ (∀ z, n ∉ stackOf t z ∧ n ∉ waitOf t z) ∧ causeIsSet t .slotEnd = true) ∧
  (∀ (minute : Bool) (s : State) (n : Slot) (w : Working),
    (slotRec s n).state = .waiting ∨ (slotRec s n).state = .active → (slotRec s n).work = some w →
    let t := scheduleEvaluation minute s
    let live := (slotRec t n).state = .waiting ∨ (slotRec t n).state = .active
    let kept := live ∧ (slotRec t n).due = (slotRec s n).due ∧ (slotRec t n).outcome = (slotRec s n).outcome ∧
      (slotRec t n).met = (slotRec s n).met ∧ (slotRec t n).runCount = (slotRec s n).runCount
    let ended := fun o : Outcome =>
      (slotRec t n).state = .ended ∧ (slotRec t n).outcome = some o ∧ (slotRec t n).work = none ∧
        (∀ z, n ∉ stackOf t z ∧ n ∉ waitOf t z) ∧ causeIsSet t .slotEnd = true
    (∀ k, w.kind = .setpoint → w.ending = .duration k →
      (minute = true → w.durationCount + 1 = k → (∀ hm days, w.start ≠ .daily hm days) →
        ended (if (slotRec s n).placed then .completed else .expired)) ∧
      (minute = false ∨ w.durationCount + 1 ≠ k → kept ∧ ∃ q, (slotRec t n).work = some q ∧
        q.durationCount = if minute then w.durationCount + 1 else w.durationCount)) ∧
    (w.kind = .reach → w.combine = .replace → s.cc.set = true → w.deadline ≤ s.cc.time / 60 →
      let verdict :=
        if (slotRec s n).met ≠ .notYet then (slotRec s n).met
        else
          match measurement s w.zone with
          | some m => if w.target - w.halfBand ≤ m ∧ m ≤ w.target + w.halfBand then .met else .notMet
          | none => .notMet
      (slotRec t n).met = verdict ∧
      (s.cc.time / 60 < w.deadline + w.holdAfter → live) ∧
      (w.deadline + w.holdAfter ≤ s.cc.time / 60 → ended (if verdict = .met then .reached else .late))) ∧
    (w.kind = .reach → s.cc.set = false ∨ s.cc.time / 60 < w.deadline → kept) ∧
    (∀ stamp, w.kind = .setpoint → w.ending = .at stamp → s.cc.set = false ∨ s.cc.time / 60 < stamp → kept) ∧
    (w.kind = .procedure ∨ w.ending = .none ∨ (∃ k, w.ending = .settled k) → w.kind ≠ .reach → kept) ∧
    (∀ hm days, w.kind = .setpoint → w.start = .daily hm days → w.retracted = false →
      (∃ stamp, w.ending = .at stamp ∧ s.cc.set = true ∧ stamp ≤ s.cc.time / 60) ∨
        (minute = true ∧ w.ending = .duration (w.durationCount + 1)) →
      ¬ startComes minute s ((slotRec s n).due.map (· / 1440)) w →
      slotRec t n = { slotRec s n with
        state := .pending
        reason := none
        runCount := min ((slotRec s n).runCount + 1) 65535
        lastRun := some (if (slotRec s n).placed then .completed else .expired)
        firedOn := (slotRec s n).due.map (· / 1440)
        due := none
        placed := false
        suspendCount := 0
        work := some { w with durationCount := 0, settledCount := 0 } } ∧
      ∀ z, n ∉ stackOf t z ∧ n ∉ waitOf t z)) ∧
  (∀ (s : State) (r : PassResult) (c : Cfg) (n : Slot) (w : Working) (k : Nat), s.mc.state = .active →
    s.mc.config = some c → s.be.inFlight = some r → (slotRec s n).state = .active → (slotRec s n).work = some w →
    w.kind = .setpoint → w.ending = .settled k → (∀ z, n ∉ waitOf s z) →
    ∃ t, exec .passCompletion s = .next t ∧
      let inside := liesInOwnBand w (zget r.zones w.zone).meas
      ((∀ hm days, w.start ≠ .daily hm days) ∨ w.retracted = true → inside → w.settledCount + 1 = k →
        (slotRec t n).state = .ended ∧ (slotRec t n).outcome = some .completed ∧ (slotRec t n).work = none ∧
          (∀ z, n ∉ stackOf t z ∧ n ∉ waitOf t z) ∧ causeIsSet t .slotEnd = true) ∧
      (∀ hm days, w.start = .daily hm days → w.retracted = false → s.dc.run.origin ≠ some (.slot n) →
        inside → w.settledCount + 1 = k →
        slotRec t n = { slotRec s n with
          state := .pending
          reason := none
          runCount := min ((slotRec s n).runCount + 1) 65535
          lastRun := some .completed
          firedOn := (slotRec s n).due.map (· / 1440)
          due := none
          placed := false
          suspendCount := 0
          work := some { w with durationCount := 0, settledCount := 0 } } ∧
        ∀ z, n ∉ stackOf t z ∧ n ∉ waitOf t z) ∧
      (inside → w.settledCount + 1 ≠ k → (slotRec t n).state = .active ∧
        (slotRec t n).work = some { w with settledCount := w.settledCount + 1 }) ∧
      (¬ inside → k ≠ 0 → (slotRec t n).state = .active ∧ (slotRec t n).work = some { w with settledCount := 0 })) ∧
  (∀ (minute : Bool) (s : State) (z : Zone) (old wait : List Slot), directiveLists s → s.mc.state = .active →
    noneBecomesDue minute s z →
    let goesOn := fun i : Slot => ∀ q, (slotRec s i).work = some q → ¬ endComes minute s q
    old.Sublist (stackOf s z) → (∀ i, i ∈ old ↔ i ∈ stackOf s z ∧ goesOn i) →
    wait.Sublist (waitOf s z) → (∀ i, i ∈ wait ↔ i ∈ waitOf s z ∧ goesOn i) →
    refilledFrom s (scheduleEvaluation minute s) z old wait) ∧
  (∀ (s : State) (r : PassResult) (c : Cfg) (z : Zone) (old : List Slot), directiveLists s → s.mc.state = .active →
    s.mc.config = some c → s.be.inFlight = some r →
    let goesOn := fun i : Slot => ∀ q, (slotRec s i).work = some q → ¬ settles r q
    old.Sublist (stackOf s z) → (∀ i, i ∈ old ↔ i ∈ stackOf s z ∧ goesOn i) →
    ∃ t, exec .passCompletion s = .next t ∧ refilledFrom s t z old (waitOf s z)) ∧
  (∀ (w : Working) (measured : Option Int), liesInOwnBand w measured ↔ ∃ m, measured = some m ∧
    (w.combine = .replace ∨ w.combine = .blend → w.target - w.halfBand ≤ m ∧ m ≤ w.target + w.halfBand) ∧
    (w.combine = .floor → w.target ≤ m) ∧ (w.combine = .ceiling → m ≤ w.target))

/-- R32: the wake timeout releases the wake line, stops its timer, and ends every directive that waits with reason
PARKED and carries WAKE with outcome NO_WAKE; every other slot is as before. The model's choice: where the timer does
not stand at its end (it is stopped, or was restarted since) there is no timeout, and the command does nothing
(notes/assumptions/8.md). -/
def Obligations.WakeTimeoutEndsTheWaiters : Prop :=
  (∀ s : State, s.mc.wakeTimer = some 0 → ∃ t, exec .wakeTimeout s = .next t ∧
    t = { s with
      pi := { s.pi with cause := t.pi.cause }
      mc := { s.mc with wake := false, wakeTimer := none }
      du := t.du } ∧
    ∀ n,
      let waits := (slotRec s n).state = .waiting ∧ (slotRec s n).reason = some .parked ∧
        ∃ w, (slotRec s n).work = some w ∧ w.wake = true
      (waits → slotRec t n = { slotRec s n with
          state := .ended
          reason := none
          outcome := some .noWake
          work := none } ∧
        (∀ z, n ∉ stackOf t z ∧ n ∉ waitOf t z) ∧ causeIsSet t .slotEnd = true) ∧
      (¬ waits → slotRec t n = slotRec s n)) ∧
  (∀ s : State, s.mc.wakeTimer ≠ some 0 → exec .wakeTimeout s = .next s)

/-! ## The vehicle page, the lines, the period timer and the pass (chapters 7 to 10) -/

/-- R6, R121, R122, R125: a commit stores its word, copies the budget (at most 60,000 W) and the five feed-forwards
(clamped to −20,000..20,000 W), makes the copy current and counts the time from it; that is all, unless the device is
ACTIVE, the period lock is on and at least P/2 has passed since the last pass start: then it is a period expiry too,
with all that one does in ACTIVE, which leaves the lock LOCKED, the period timer at 0, and in flight the pass computed
with the copy just made (R104, R105, R111, R116, R124, R126, R164). The grant timeout of a current copy under a
committed configuration, when the time since the last commit has reached it, raises STALE (bit 6) and leaves the copy
degraded, with the floor grant for its budget, no feed-forward and its time no longer counted; after a commit, for a
copy that is degraded already, and for a device without a configuration, there is none. The model's choices: the order
of the blocks at the expiry (notes/assumptions/25.md), every such expiry that finds a sweep, break or preamble in
flight counts one overrun, and a sweep between two exchanges ends at once (31), and a pass in flight is replaced (10).
-/
def Obligations.VehicleCopyFollowsCommitsAndTheGrantTimeout : Prop :=
  (∀ (v : Word) (s : State), portTakes .write 0x21F s →
     let stored := { accessed .write 0x021F 0 s with xm := memWrite s.xm 0x21F v }
     let copied := { stored with
       mu := { s.mu with
         copy := {
           budget := min ((memRead s.xm 0x200).toNat : Int) 60000
           ff := zmk fun z => clamp (memRead s.xm (0x201 + zoneNumber z)).toInt (-20000) 20000
           current := true }
         commitAge := some 0 } }
     (s.mc.state ≠ .active ∨ s.be.lock = .off → exec (.commit v) s = .next copied) ∧
     (∀ e c, s.mc.state = .active → s.be.lock ≠ .off → s.be.timer = some e → s.mc.config = some c →
       (e < c.period / 2 → exec (.commit v) s = .next copied) ∧
       (c.period / 2 ≤ e → ∃ t, exec (.commit v) s = .next t ∧
         passStarted c .locked copied t ∧
         t.be.lock = .locked ∧ t.be.timer = some 0 ∧ t.be.inFlight = some (computePass t c) ∧ t.pu.firstPass = false ∧
         t.mu.copy = copied.mu.copy ∧ t.mu.commitAge = some 0 ∧ t.xm = stored.xm ∧ t.mc = s.mc ∧ t.du = s.du ∧
         t.cc = s.cc ∧ t.be.passCount = s.be.passCount))) ∧
  ((∀ (s : State) (c : Cfg) (e : Nat), s.mc.config = some c → s.mu.copy.current = true →
     s.mu.commitAge = some e → c.grantTimeout * 1000 ≤ e →
     exec .grantTimeout s = .next
       { s with
         pi := { s.pi with cause := s.pi.cause ||| 0x40 }
         mu := { s.mu with copy := ⟨c.floorGrant, ⟨0, 0, 0, 0, 0⟩, false⟩, commitAge := none } }) ∧
   (∀ s : State, s.mc.config = none ∨ s.mu.copy.current = false ∨ s.mu.commitAge = none →
     exec .grantTimeout s = .next s) ∧
   (∀ (s : State) (c : Cfg) (e : Nat), s.mc.config = some c → s.mu.commitAge = some e → e < c.grantTimeout * 1000 →
     exec .grantTimeout s = .next s))

/-- R25, R102 to R105, R111, R113 to R116, R124 to R126, R155, R164 to R173, R180: the period timer expires at the
period, or in ACTIVE while LOCKED at 1.5 periods; before that, as behind a commit that restarts it, there is no expiry.
One in ACTIVE restarts the timer, ages the channels, keeps the valid measurements and sets the degraded flags,
evaluates the protection of every zone (its states, its allowances, ADVISORY and FAULT), composes every zone, forms the
zone states, puts the pass computed from what then stands in flight, and turns LOCKED into LOCK_LOST; the clock, the
directives, the actuators, the node records and the results of the last pass are as before. A MELT whose evaporator
test then holds ends. In STARTING, QUIESCING and PARKING it restarts the timer and ages the channels; in PARKING it
also moves every enabled actuator's command one slew step toward its rest value, and with the link waiting, over an
empty exchange list, begins a sweep that completes at once and enters PARKED where the run is IDLE and every carried
command is at rest. The model's choices: the order of the blocks (notes/assumptions/25.md); a pass in flight is
replaced (10); every such expiry that finds a sweep, break or preamble in flight counts one overrun (31); the empty
sweep (32); with the link waiting in PARKING over a list that is not empty, which no run reaches, the expiry begins a
sweep at the cursor (64), which clears what the actuators have carried (17); a command that is not held takes its rest
value at once (54); with the timer stopped or short of its end nothing happens (8). -/
def Obligations.PeriodExpiryStartsAPassInActiveAlone : Prop :=
  (∀ (s : State) (c : Cfg) (e : Nat), s.mc.state = .active → s.mc.config = some c → s.be.timer = some e →
     (if s.be.lock = .locked then 3 * c.period / 2 else c.period) ≤ e →
     ∃ t, exec .periodExpiry s = .next t ∧
       passStarted c (if s.be.lock = .locked then .lockLost else s.be.lock) s t) ∧
  ((∀ (s : State) (c : Cfg), s.mc.config = some c →
     s.be.timer = none ∨ (∃ e, s.be.timer = some e ∧
       e < if s.mc.state = .active ∧ s.be.lock = .locked then 3 * c.period / 2 else c.period) →
     exec .periodExpiry s = .next s) ∧
   (∀ (s : State) (e : Nat) (c : Cfg), s.be.timer = some e → s.mc.config = some c → c.period ≤ e →
     s.mc.state = .starting ∨ s.mc.state = .quiescing ∨ s.mc.state = .parking →
     ∃ u : State,
       u = { s with
         mu := { s.mu with channels := u.mu.channels, lastValid := u.mu.lastValid }
         be := { s.be with timer := some 0 }
         au := { s.au with acts := u.au.acts }
         dc := { s.dc with run := u.dc.run } } ∧
       (∀ k, u.mu.channels.get k =
         { s.mu.channels.get k with
           age :=
             if (c.channels.get k).enable = true ∧ (s.mu.channels.get k).value ≠ none then
               min ((s.mu.channels.get k).age + 1) (c.holdLimit + 1)
             else (s.mu.channels.get k).age }) ∧
       (∀ z, zget u.mu.lastValid z =
         match measurement u z with
         | some m => some m
         | none => zget s.mu.lastValid z) ∧
       u.dc.run = (if s.dc.run.state = .melt ∧ evaporatorClear u = true then
           { s.dc.run with state := .drip, phaseTimer := 0 } else s.dc.run) ∧
       (s.mc.state ≠ .parking → u.au = s.au) ∧
       (s.mc.state = .parking → ∀ i, u.au.acts.get i =
         { s.au.acts.get i with
           command :=
             if (c.acts.get i).enable then
               some (match (s.au.acts.get i).command with
                 | none => (c.acts.get i).rest
                 | some h =>
                   if h + (c.acts.get i).slew < (c.acts.get i).rest then h + (c.acts.get i).slew
                   else if (c.acts.get i).rest < h - (c.acts.get i).slew then h - (c.acts.get i).slew
                   else (c.acts.get i).rest)
             else (s.au.acts.get i).command }) ∧
       (s.mc.state ≠ .parking ∨ s.flc.work ≠ .waiting → exec .periodExpiry s = .next u) ∧
       (s.mc.state = .parking → s.flc.work = .waiting → exchangeList s = [] →
         let rests := u.dc.run.state = .idle ∧
           ∀ i, (c.acts.get i).enable = true → (s.au.acts.get i).carried = some (c.acts.get i).rest
         (rests → ∃ t, exec .periodExpiry s = .next t ∧ parkedFrom .modeParked c u t) ∧
         (¬ rests → exec .periodExpiry s = .next
           { u with
             flc := { u.flc with after := .go, cursor := 0, fromFirst := true, round := Vector.replicate 30 false } })) ∧
       (s.mc.state = .parking → s.flc.work = .waiting → exchangeList s ≠ [] →
         ∃ t, exec .periodExpiry s = .next t ∧
           t = { u with
             flc := { u.flc with work := .due, after := .go, fromFirst := decide (u.flc.cursor = 0) }
             au := { u.au with acts := t.au.acts } } ∧
           ∀ i, t.au.acts.get i = { u.au.acts.get i with carried := none })))

/-- R126, R127, R136, R146, R150 to R155: a pass completion in ACTIVE puts the results of the pass in flight in place
of the last ones and counts the pass; the frost grows by what the pass says, to at most frost_limit. Each enabled
actuator's aim is its rest value while it is latched, its defrost value in PREPARE, MELT and DRIP where it has one, and
otherwise base + floor(gain × load / 1000) for the load of its source; clamped into [min, max], and for a coolant pump,
while CLVL is asserted, to at most its cap and at least min; and its command moves toward the aim by at most its slew
step. A publication that falls due takes the words of the report as they stand before the link and the defrost run take
their parts. With the link waiting the sweep of ACTIVE begins at the cursor, over an empty exchange list completing at
once; in any other phase the link goes on, a sweep that was cut resuming after the exchange in flight. The protection
states, the measurements, the clock and the host's words are as before. The model's choices: the order of the blocks
(notes/assumptions/24.md); a publication that falls due replaces one in flight, which R12's time limits exclude (10);
the empty sweep (32); the sweep's begin clears what the actuators have carried (17); an actuator that holds no command
takes its aim at once (54); with no pass in flight nothing happens (8). -/
def Obligations.PassCompletionPublishesItsResults : Prop :=
  (∀ (s : State) (r : PassResult) (c : Cfg), s.mc.state = .active → s.mc.config = some c → s.be.inFlight = some r →
    ∃ t, exec .passCompletion s = .next t ∧
      t = { s with
        pi := { s.pi with
          cause := t.pi.cause
          divisorCount := t.pi.divisorCount
          publication := t.pi.publication }
        du := t.du
        flc := t.flc
        be := { s.be with
          integral := zmk fun z => (zget r.zones z).integral
          prev := zmk fun z => ⟨(zget r.zones z).demand.sign, (zget r.zones z).unserved⟩
          results := r.zones
          totals := r.totals
          inFlight := none
          frost := if 0 < r.frostAdd then min (s.be.frost + r.frostAdd) c.plant.frostLimit else s.be.frost
          passCount := s.be.passCount + 1 }
        au := { s.au with acts := t.au.acts }
        dc := { s.dc with run := t.dc.run } } ∧
      (∀ n, t.flc.nodes.get n = s.flc.nodes.get n) ∧
      (s.flc.work = .waiting → exchangeList s ≠ [] →
        t.flc = { s.flc with work := .due, after := .go, fromFirst := decide (s.flc.cursor = 0) }) ∧
      (s.flc.work = .waiting → exchangeList s = [] →
        t.flc = { s.flc with after := .go, cursor := 0, fromFirst := true, round := Vector.replicate 30 false }) ∧
      (s.flc.work ≠ .waiting →
        t.flc = { s.flc with after := if s.flc.after = .cut then .cutResume else s.flc.after }) ∧
      (∀ i, (t.au.acts.get i).carried =
        if s.flc.work = .waiting ∧ exchangeList s ≠ [] then none else (s.au.acts.get i).carried) ∧
      (c.divisor ≤ s.pi.divisorCount + 1 →
        t.pi.divisorCount = 0 ∧ t.pi.publication = some (reportWords { t with flc := s.flc, dc := s.dc })) ∧
      (s.pi.divisorCount + 1 < c.divisor →
        t.pi.divisorCount = s.pi.divisorCount + 1 ∧ t.pi.publication = s.pi.publication) ∧
      (∀ i, let a := c.acts.get i; let q := s.au.acts.get i
        let aim : AimCase × Int :=
          if q.latch ≠ none then (.rest, a.rest)
          else
            match a.defrost with
            | some d =>
              if s.dc.run.state = .prepare ∨ s.dc.run.state = .melt ∨ s.dc.run.state = .drip then (.defrost, d)
              else (.load, a.base + a.gain * sourceLoad c r a / 1000)
            | none => (.load, a.base + a.gain * sourceLoad c r a / 1000)
        let inRange := max a.min (min aim.2 a.max)
        let target := if accepted s .clvl = true ∧ a.pump = true then max a.min (min inRange a.cap) else inRange
        if a.enable = true then
          a.min ≤ a.max →
          t.au.acts.get i = { q with
            aim := aim.1
            carried := (t.au.acts.get i).carried
            command := some
              (match q.command with
                | none => target
                | some h =>
                  if h + a.slew < target then h + a.slew else if target < h - a.slew then h - a.slew else target) }
        else t.au.acts.get i = { q with carried := (t.au.acts.get i).carried })) ∧
  (∀ (c : Cfg) (r : PassResult) (a : ActCfg),
    let load := fun x capacity : Int => if capacity = 0 then 0 else 1000 * x / capacity
    let served := fun z => (zget r.zones z).served
    (a.source = some .compressorLoad → sourceLoad c r a = load r.totals.compUse c.plant.pcomp) ∧
    (a.source = some .heaterLoad → sourceLoad c r a = load r.totals.heatUse c.plant.pheat) ∧
    (a.source = some .radiatorLoad → sourceLoad c r a = load r.totals.radiated c.plant.fmax) ∧
    (∀ z, a.zones = [z] → 0 ≤ (zget c.zones z).hmax → 0 ≤ (zget c.zones z).cmax →
      (a.source = some .zoneHeat → sourceLoad c r a = load (max (served z) 0) (zget c.zones z).hmax) ∧
      (a.source = some .zoneCool → sourceLoad c r a = load (max (-(served z)) 0) (zget c.zones z).cmax)) ∧
    (a.source = some .zoneAny → a.zones ≠ [] →
      (∀ z ∈ a.zones, 0 ≤ (zget c.zones z).hmax ∧ 0 ≤ (zget c.zones z).cmax) →
      let zoneLoad := fun z =>
        if 0 < served z then load (served z) (zget c.zones z).hmax
        else if served z < 0 then load (-(served z)) (zget c.zones z).cmax
        else 0
      (∀ z ∈ a.zones, zoneLoad z ≤ sourceLoad c r a) ∧ ∃ z ∈ a.zones, sourceLoad c r a = zoneLoad z)) ∧
  (∀ s : State, s.be.inFlight = none → exec .passCompletion s = .next s)

/-- R118, R120: a sample that equals the accepted state sets the run count to 0; one that differs adds 1 to it, up to
the filter count N; the next one is accepted: the accepted state becomes the sample, the run count 0, LINE is raised,
with FAULT where CLVL becomes asserted, where HVOK becomes deasserted a run in progress is aborted with cause HVOK as
R186 says, and the schedule evaluation of a line change follows, which is all else that happens. -/
def Obligations.LineFilterAcceptsAfterEnoughSamples : Prop :=
  ∀ (l : Line) (b : Bool) (s : State), s.resetHeld = false →
    let f := lget s.mu.filters l
    accepted s l = f.accepted ∧
    let N := match s.mc.config with
      | some c => lget c.filterCount l
      | none => 15
    (b = f.accepted →
      exec (.lineSample l b) s = .next
        { s with mu := { s.mu with filters := lset s.mu.filters l ⟨f.accepted, 0⟩ } }) ∧
    (b ≠ f.accepted → f.run + 1 ≤ N →
      exec (.lineSample l b) s = .next
        { s with mu := { s.mu with filters := lset s.mu.filters l ⟨f.accepted, f.run + 1⟩ } }) ∧
    (b ≠ f.accepted → N < f.run + 1 →
      ∃ t, exec (.lineSample l b) s = .next t ∧
        t = scheduleEvaluation false
          { s with
            pi := { s.pi with cause := s.pi.cause ||| 0x80 ||| (if l = .clvl ∧ b = true then 0x08 else 0) }
            mu := { s.mu with filters := lset s.mu.filters l ⟨b, 0⟩ }
            dc := { s.dc with run := if l = .hvok ∧ b = false then abortedBy .hvok s.dc.run else s.dc.run } } ∧
        t.mu = { s.mu with filters := lset s.mu.filters l ⟨b, 0⟩ } ∧
        causeIsSet t .line = true ∧ (l = .clvl → b = true → causeIsSet t .fault = true) ∧
        (l = .hvok → b = false → s.dc.run.state ≠ .idle → t.dc.run.state = .restore) ∧
        t.xm = s.xm ∧ t.cc = s.cc ∧ t.flc = s.flc ∧ t.be = s.be ∧ t.au = s.au ∧ t.pu = s.pu ∧
        t.mc.state = s.mc.state ∧ t.mc.config = s.mc.config)

/-! ## The field link (chapter 6) -/

/-- R90, R91, R93, R94, R101: a due request starts with its characters formed from the values that stand: the address
character alone carries the mark, the function is 0x21 for a SAMPLE and 0x42 for a DRIVE, the length counts the
payload, and function, length, payload and check sum to 0 modulo 256. A SAMPLE has no payload. A DRIVE's holds, least
significant byte first, one output value for each index from 0 to the highest that an enabled actuator of the node
names: the command that actuator holds, or 0 for an index that none names. A DRIVE records, for each enabled actuator
of the node, the command it carries. Nothing else changes. The exchange due is the one that the cursor names in the
list of the enabled entries' exchanges, in entry order, a MIXED entry's SAMPLE before its DRIVE. The model's choice:
with no request due nothing happens (notes/assumptions/8.md). -/
def Obligations.RequestStartFormsTheRequest : Prop :=
  (∀ (s : State) (x : Exchange) (c : Cfg), s.mc.config = some c → s.flc.work = .due → currentExchange s = some x →
    ∃ t, exec .requestStart s = .next t ∧
      t = { s with flc := { s.flc with work := t.flc.work }, au := { s.au with acts := t.au.acts } } ∧
      (let address := (c.nodes.get x.entry).address
      let function := if x.drive then 0x42 else 0x21
      let n := if x.drive then outputCount c address else 0
      let value := outputValue s c address
      let payload := (List.range n).flatMap fun k => [value k % 256, value k / 256 % 256]
      ∃ check < 256,
        t.flc.work = .sending
          (character true address :: (([function, 2 * n] ++ payload ++ [check]).map (character false))) ∧
        (function + 2 * n + payload.sum + check) % 256 = 0) ∧
      ∀ i, t.au.acts.get i =
        if x.drive = true ∧ (c.acts.get i).enable = true ∧ (c.acts.get i).node = (c.nodes.get x.entry).address then
          { s.au.acts.get i with carried := (s.au.acts.get i).command }
        else s.au.acts.get i) ∧
  (∀ (s : State) (c : Cfg) (address : Nat),
    let names := fun (i : Fin 12) (k : Nat) =>
      (c.acts.get i).enable = true ∧ (c.acts.get i).node = address ∧ (c.acts.get i).output = k
    (∀ i k, names i k → k < outputCount c address) ∧
    (outputCount c address ≠ 0 → ∃ i, names i (outputCount c address - 1)) ∧
    (∀ i k, names i k → (∀ j, names j k → i ≤ j) →
      outputValue s c address k = ((s.au.acts.get i).command.getD 0).toNat) ∧
    ∀ k, (∀ i, ¬ names i k) → outputValue s c address k = 0) ∧
  (∀ (s : State) (c : Cfg), s.mc.config = some c →
    exchangeList s = ((List.finRange 30).flatMap fun n =>
      if (c.nodes.get n).enable then
        match (c.nodes.get n).kind with
        | some .sensor => [⟨n, false⟩]
        | some .actuator => [⟨n, true⟩]
        | some .mixed => [⟨n, false⟩, ⟨n, true⟩]
        | none => []
      else []) ∧
    currentExchange s = (exchangeList s)[s.flc.cursor]? ∧ ∀ n, entryAddress s n = (c.nodes.get n).address) ∧
  (∀ (mark : Bool) (d : Nat), d < 256 →
    (character mark d).getLsbD 0 = false ∧ (∀ i < 8, (character mark d).getLsbD (i + 1) = d.testBit i) ∧
      (character mark d).getLsbD 9 = mark ∧ (character mark d).getLsbD 10 = true) ∧
  (∀ s : State, s.flc.work ≠ .due → exec .requestStart s = .next s)

/-- R90, R95, R97, R102, R106, R109: the events that move the line from one phase to the next. The end of a request
opens the reply window; a start bit in the window, or between characters, begins a character, and after a reply error
ends the run of 1s; the 23rd bit time of a gap is the error GAP; and a break ends in its preamble: each changes the
line's work alone. A preamble ends in the break that is due, if one is; in ACTIVE with a pass in flight in the wait for
that pass; and otherwise, over an exchange list that is not empty, in a sweep from the first exchange with the round's
record emptied (over an empty one: StartingSweepEndsInActive). LDIR is high in a request, a break and a preamble and
low at every other time; LTX is 0 in a break, the bits of the characters in turn in a request, and 1 in a preamble,
while the line is off, and at every other time. The model's choices: an event is nothing at a line in a phase that
cannot have it (notes/assumptions/8.md), a start bit after a reply error leaves a run of no 1s (12), and the sweep's
begin clears every actuator's record of the command carried (17). -/
def Obligations.LineEventsMoveThePhase : Prop :=
  (∀ s : State,
     let works := fun w : LinkWork => ({ s with flc := { s.flc with work := w } } : State)
     (∀ chars, s.flc.work = .sending chars → exec .requestLastStopBitEnd s = .next (works .window)) ∧
     ((∀ chars, s.flc.work ≠ .sending chars) → exec .requestLastStopBitEnd s = .next s) ∧
     (s.flc.work = .window → exec .startBit s = .next (works (.char []))) ∧
     (∀ rx, s.flc.work = .gap rx → exec .startBit s = .next (works (.char rx))) ∧
     (∀ k n, s.flc.work = .failed k n → exec .startBit s = .next (works (.failed k 0))) ∧
     (s.flc.work ≠ .window → (∀ rx, s.flc.work ≠ .gap rx) → (∀ k n, s.flc.work ≠ .failed k n) →
       exec .startBit s = .next s) ∧
     (∀ rx, s.flc.work = .gap rx → exec .gapTimeout s = .next (works (.failed .gap 23))) ∧
     ((∀ rx, s.flc.work ≠ .gap rx) → exec .gapTimeout s = .next s) ∧
     (s.flc.work = .brk → exec .breakCompletion s = .next (works .preamble)) ∧
     (s.flc.work ≠ .brk → exec .breakCompletion s = .next s)) ∧
  ((∀ s : State, s.flc.work = .preamble →
     (s.flc.after = .brk →
       exec .preambleCompletion s = .next { s with flc := { s.flc with work := .brk, after := .go } }) ∧
     (s.flc.after ≠ .brk → s.mc.state = .active → s.be.inFlight.isSome = true →
       ∃ t, exec .preambleCompletion s = .next t ∧
         t = { s with flc := { s.flc with work := .waiting, after := .go, cursor := 0, round := t.flc.round } } ∧
         ∀ n, t.flc.round.get n = false) ∧
     (s.flc.after ≠ .brk → s.mc.state ≠ .active ∨ s.be.inFlight = none → exchangeList s ≠ [] →
       ∃ t, exec .preambleCompletion s = .next t ∧
         t = { s with
           flc := { s.flc with work := .due, after := .go, cursor := 0, fromFirst := true, round := t.flc.round }
           au := { s.au with acts := t.au.acts } } ∧
         (∀ n, t.flc.round.get n = false) ∧
         ∀ i, t.au.acts.get i = { s.au.acts.get i with carried := none })) ∧
   (∀ s : State, s.flc.work ≠ .preamble → exec .preambleCompletion s = .next s)) ∧
  ((∀ w, ldirHigh w = true ↔ w = .brk ∨ w = .preamble ∨ ∃ chars, w = .sending chars) ∧
   (∀ k, ltxAt .brk k = false) ∧
   (∀ chars k c, chars[k / 11]? = some c → ltxAt (.sending chars) k = c.getLsbD (k % 11)) ∧
   (∀ w k, w ≠ .brk → (∀ chars, w ≠ .sending chars) → ltxAt w k = true))

/-- R90, R92 to R94, R96, R97: a reply character is judged at its stop bit, after the characters `rx` received before
it, none in the reply window. The wrong mark is MARK; then a stop bit of 0 is FRAME; then the first character is
ADDRESS unless it is the node's address, the third LENGTH unless it is a length of the function's reply, and the check
character CHECK unless the sum is 0 modulo 256 and then STATUS unless the status is 0. A character with no fault before
the check character is kept. After a reply error a character is not judged; an error, and each character after it,
leaves the run of 1s that ends the character: none without a stop bit, and else the stop bit, a mark of 1 and the data
bits of 1 next to it. Each case changes the line's work alone, and with no reply in progress nothing happens. The
model's choices: a character in the reply window or between characters is judged with no START_BIT before it
(notes/assumptions/11.md), the run of 1s is kept with the error (12), and a character at a line that expects none is
nothing (8). -/
def Obligations.ReplyCharactersAreJudgedInOrder : Prop :=
  (∀ (d : Byte) (mark stop : Bool) (s : State) (rx : List Byte) (x : Exchange),
    s.flc.work = .char rx ∨ s.flc.work = .gap rx ∨ (s.flc.work = .window ∧ rx = []) → currentExchange s = some x →
    let works := fun w : LinkWork => ({ s with flc := { s.flc with work := w } } : State)
    let fails := fun k : MissKind =>
      exec (.replyCharacter d mark stop) s = .next (works (.failed k (trailingOnes d mark stop)))
    let kept := exec (.replyCharacter d mark stop) s = .next (works (.gap (rx ++ [d])))
    (mark ≠ rx.isEmpty → fails .mark) ∧
    (mark = rx.isEmpty → stop = false → fails .frame) ∧
    (mark = rx.isEmpty → stop = true →
      (rx = [] → (d.toNat ≠ entryAddress s x.entry → fails .address) ∧
        (d.toNat = entryAddress s x.entry → kept)) ∧
      (rx.length = 1 → kept) ∧
      (rx.length = 2 →
        ((x.drive = true ∧ d.toNat = 9) ∨ (x.drive = false ∧ d.toNat ∈ [0, 2, 4, 6, 8]) → kept) ∧
        (¬ ((x.drive = true ∧ d.toNat = 9) ∨ (x.drive = false ∧ d.toNat ∈ [0, 2, 4, 6, 8])) → fails .length)) ∧
      (∀ a st len payload, rx = a :: st :: len :: payload →
        (payload.length < len.toNat → kept) ∧
        (len.toNat ≤ payload.length →
          (st.toNat + len.toNat + (payload.map BitVec.toNat).sum + d.toNat) % 256 ≠ 0 → fails .check) ∧
        (len.toNat ≤ payload.length →
          (st.toNat + len.toNat + (payload.map BitVec.toNat).sum + d.toNat) % 256 = 0 → st ≠ 0 → fails .status)))) ∧
  (∀ (d : Byte) (mark stop : Bool) (s : State),
    (∀ k n, s.flc.work = .failed k n →
      exec (.replyCharacter d mark stop) s = .next
        { s with flc := { s.flc with work := .failed k (trailingOnes d mark stop) } }) ∧
    (s.flc.work = .off ∨ s.flc.work = .brk ∨ s.flc.work = .preamble ∨ s.flc.work = .waiting ∨ s.flc.work = .due ∨
        (∃ chars, s.flc.work = .sending chars) →
      exec (.replyCharacter d mark stop) s = .next s)) ∧
  (∀ (d : Byte) (mark : Bool),
    trailingOnes d mark false = 0 ∧ trailingOnes d false true = 1 ∧
    ∀ n ≤ 8, (∀ j < 8, 8 - n ≤ j → d.getLsbD j = true) → (n < 8 → d.getLsbD (7 - n) = false) →
      trailingOnes d true true = 2 + n)

/-- R93 to R95, R97, R99 to R101, R103, R104, R106 to R108, R110, R112, R114 to R116, R156 to R161, R180: the close of
the reply window is the miss NO_REPLY, idle or the error bound after a reply error k the miss k, and a whole reply
without a fault is good. The node record follows R99: a miss adds 1 to the miss count, to at most miss_limit + 1,
clears the good count, records its kind, and makes the node MISSING or, at miss_limit + 1, FAILED, which raises FAULT;
a good reply makes it ONLINE with both counts 0, but for the first of the two that a FAILED node needs, and counts in
the round. A SAMPLE hands its channels the node's state and, when good, its values, an implausible one setting the
range fault alone; the measurements, the degraded flags and the evaporator test follow. A DRIVE hands its actuators the
node's state and, when good, feedback, tracking count and fault byte; the first fault condition that holds latches,
with FAULT and the path flags. Then the link: a break that is asked for begins; a QUIESCE's sweep begins; else the next
request is due, a cut sweep waits at the cursor, or, its pass completed, resumes; in ACTIVE the last exchange ends the
round: a silent one starts a recovery, and after any other the link waits, or goes on where its pass has completed. The
last clauses give a channel's state and a zone's measurement. The model's choices: a node's state reaches a channel at
SAMPLE exchanges and an actuator at DRIVE exchanges alone (notes/assumptions/51.md); idle and the bound are taken after
any run of 1s (12); the check character needs no START_BIT (11); a sweep's begin clears the commands carried, and an
actuator that none was carried to keeps its tracking count (17). -/
def Obligations.ExchangesUpdateTheirNode : Prop :=
  (∀ (i : Instr) (s : State) (x : Exchange) (c : Cfg) (res : ExchangeResult), s.mc.config = some c →
    currentExchange s = some x → endsExchange i s res →
    let u := handResults x res (updateNode x res s)
    let r := s.flc.nodes.get x.entry
    let address := (c.nodes.get x.entry).address
    let node := (u.flc.nodes.get x.entry).state
    let latched := ∃ a, (s.au.acts.get a).latch = none ∧ (u.au.acts.get a).latch ≠ none
    (u = { s with
        pi := { s.pi with cause := u.pi.cause }
        flc := { s.flc with nodes := u.flc.nodes, round := u.flc.round }
        mu := { s.mu with
          channels := u.mu.channels
          lastValid := u.mu.lastValid
          degraded := u.mu.degraded }
        au := u.au
        dc := { s.dc with run := u.dc.run } } ∧
      (∀ n, n ≠ x.entry → u.flc.nodes.get n = s.flc.nodes.get n) ∧
      (match res with
        | .error k =>
          u.flc.round = s.flc.round ∧
          u.flc.nodes.get x.entry =
            { state := if r.misses + 1 ≤ c.missLimit then .missing else .failed
              misses := min (r.misses + 1) (c.missLimit + 1)
              good := 0
              lastError := some k }
        | .ok _ =>
          (∀ n, u.flc.round.get n = if n = x.entry then true else s.flc.round.get n) ∧
          u.flc.nodes.get x.entry =
            if r.state = .failed ∧ r.good = 0 then { r with good := 1 }
            else { r with state := .online, misses := 0, good := 0 }) ∧
      (causeIsSet u .fault = true ↔ causeIsSet s .fault = true ∨ (node = .failed ∧ r.state ≠ .failed) ∨ latched ∨
        (x.drive = false ∧ s.mc.state = .active ∧ ∃ z, zget s.mu.degraded z = false ∧ measurement u z = none)) ∧
      ∀ f, f ≠ .fault → causeIsSet u f = causeIsSet s f) ∧
    (x.drive = false →
      u.au = s.au ∧
      u.dc.run = (if s.dc.run.state = .melt ∧ evaporatorClear u = true then
        { s.dc.run with state := .drip, phaseTimer := 0 } else s.dc.run) ∧
      (∀ k, let e := c.channels.get k; let q := s.mu.channels.get k
        (e.enable = false ∨ e.node ≠ address → u.mu.channels.get k = q) ∧
        (e.enable = true → e.node = address → e.index ≤ 3 →
          u.mu.channels.get k =
            match res with
            | .error _ => { q with node := node }
            | .ok payload =>
              let raw :=
                if 2 * e.index + 1 < payload.length then
                  (payload.getD (2 * e.index) 0).toNat + 256 * (payload.getD (2 * e.index + 1) 0).toNat
                else 0x8000
              let v : Int := if raw < 0x8000 then raw else raw - 0x10000
              if raw = 0x8000 ∨ v < e.plausLo ∨ e.plausHi < v then { q with rangeFault := true, node := node }
              else { value := some v, age := 0, rangeFault := false, node := node })) ∧
      ∀ z,
        zget u.mu.lastValid z = (match measurement u z with | some m => some m | none => zget s.mu.lastValid z) ∧
        zget u.mu.degraded z = if s.mc.state = .active then (measurement u z).isNone else zget s.mu.degraded z) ∧
    (x.drive = true →
      u.mu = s.mu ∧ u.dc = s.dc ∧
      (∀ a, let e := c.acts.get a; let q := s.au.acts.get a
        (e.enable = false ∨ e.node ≠ address → u.au.acts.get a = q) ∧
        (e.enable = true → e.node = address →
          (∀ k, res = .error k → u.au.acts.get a =
            { q with
              node := node
              latch := if q.latch = none ∧ node = .failed then some .nodeFailed else q.latch }) ∧
          (∀ payload, res = .ok payload → payload.length = 9 → e.output ≤ 3 →
            let v : Int := (payload.getD (2 * e.output) 0).toNat + 256 * (payload.getD (2 * e.output + 1) 0).toNat
            let byte := (payload.getD 8 0).toNat
            let count :=
              match q.carried with
              | none => q.tracking
              | some sent => if e.tolerance < |v - sent| then min (q.tracking + 1) 3 else 0
            u.au.acts.get a =
              { q with
                node := node
                feedback := some v
                tracking := count
                latch :=
                  if q.latch ≠ none then q.latch
                  else if node = .failed then some .nodeFailed
                  else if byte % 2 = 1 then some .stall
                  else if byte % 4 = 2 then some .overtemp
                  else if byte ≠ 0 then some .nodeFault
                  else if count = 3 ∧ q.carried ≠ none then some .tracking
                  else none }))) ∧
      (¬ latched → u.au.paths = s.au.paths) ∧
      (latched → ∀ z,
        let e := (zget c.zones z).paths
        let flag := fun (enabled : Bool) (k : Nat) => enabled && decide (∀ a, (c.acts.get a).enable = true →
          (u.au.acts.get a).latch ≠ none → (c.acts.get a).essential.testBit (6 * zoneNumber z + k) = false)
        zget u.au.paths z =
          ⟨flag e.source 0, flag e.sink 1, flag e.radiate 2, flag e.chill 3, flag e.pump 4, flag e.resistive 5⟩)) ∧
    (s.flc.after = .brk → exec i s = .next { u with flc := { u.flc with work := .brk, after := .go } }) ∧
    (s.flc.after = .first → ∃ t, exec i s = .next t ∧ sweepBegun 0 u t) ∧
    (s.flc.cursor + 1 < (exchangeList s).length →
      (s.flc.after = .go →
        exec i s = .next { u with flc := { u.flc with work := .due, cursor := s.flc.cursor + 1 } }) ∧
      (s.flc.after = .cut →
        exec i s = .next
          { u with flc := { u.flc with work := .waiting, after := .go, cursor := s.flc.cursor + 1 } }) ∧
      (s.flc.after = .cutResume → ∃ t, exec i s = .next t ∧ sweepBegun (s.flc.cursor + 1) u t)) ∧
    (s.flc.cursor + 1 = (exchangeList s).length → s.mc.state = .active → s.flc.after ≠ .brk → s.flc.after ≠ .first →
      let silent := ∀ y ∈ exchangeList s, u.flc.round.get y.entry = false
      (silent → exec i s = .next (recovering u)) ∧
      (¬ silent → s.flc.after ≠ .cutResume → exec i s = .next (linkWaiting u)) ∧
      (¬ silent → s.flc.after = .cutResume → ∃ t, exec i s = .next t ∧ sweepBegun 0 u t))) ∧
  (∀ (hold : Nat) (q : ChannelRec),
    (q.value = none → channelState hold q = .none) ∧
    (q.value ≠ none → q.node = .failed ∨ hold < q.age → channelState hold q = .failed) ∧
    (q.value ≠ none → q.node ≠ .failed → q.age ≤ hold →
      channelState hold q = if q.age ≤ 1 then .fresh else .held)) ∧
  (∀ (s : State) (c : Cfg) (k : Fin 16), s.mc.config = some c →
    let q := s.mu.channels.get k
    channelValue s k.val =
      if channelState c.holdLimit q = .fresh ∨ channelState c.holdLimit q = .held then q.value else none) ∧
  (∀ (s : State) (k : Nat), 16 ≤ k → channelValue s k = none) ∧
  (∀ (s : State) (c : Cfg) (z : Zone), s.mc.config = some c →
    let vs := (zget c.zones z).channels.filterMap (channelValue s)
    (vs = [] → measurement s z = none) ∧
    (vs ≠ [] →
      ((zget c.zones z).agg = some .max → ∃ m ∈ vs, measurement s z = some m ∧ ∀ v ∈ vs, v ≤ m) ∧
      ((zget c.zones z).agg = some .mean → ∃ m : Int, measurement s z = some m ∧
        m * vs.length ≤ vs.sum ∧ vs.sum < (m + 1) * vs.length) ∧
      ((zget c.zones z).agg = some .first → measurement s z = vs.head?)))

/-- R22, R25, R27, R47, R101 to R103, R107, R109, R113, R115, R116, R124: the last exchange of a sweep, whatever ends
it, in the moving states, where `u` is the state with its result handed on. In STARTING the state becomes ACTIVE, BUSY
is cleared and MODE_ACTIVE is DONE with CTRL_DONE raised, a publication begins with the divisor count at 0 and takes
the words of the report as they stand once the waiting directives are placed, the period timer restarts at 0, the lock
is LOCKED exactly where it is enabled, the first-pass mark is set, and each zone without a valid measurement becomes
DEGRADED, a flag that was clear raising FAULT (R116). Each zone's waiting directives are placed in the order of its
wait list, at most four of them, and the others wait on with reason STACK_FULL. A silent round starts a recovery: its
break begins and it is counted (R107); otherwise the link waits for the first pass. In PARKING, a sweep that began at
the first exchange and carried every enabled actuator's rest value, with the run IDLE, enters PARKED: BUSY is cleared,
MODE_PARKED is DONE with CTRL_DONE raised, the link and the lock are OFF, the timer is stopped, and every channel with
a value is FAILED; after any other sweep a silent round starts a recovery, and the next sweep begins from the first
exchange. In QUIESCING it enters PARKED with QUIESCE DONE, whatever the replies were. A preamble that ends over an
empty exchange list completes its sweep at once, no round being silent: STARTING and QUIESCING end as above, PARKING
where the run is IDLE and every carried command is at rest, and otherwise, and in ACTIVE with no pass in flight, the
link waits. The model's choices: the empty sweep (notes/assumptions/32.md); the order of the blocks (26); ACTIVE
entry's publication replaces one in flight (10); the next sweep's begin clears what the actuators have carried (17). -/
def Obligations.StartingSweepEndsInActive : Prop :=
  (∀ (i : Instr) (s : State) (x : Exchange) (c : Cfg) (res : ExchangeResult), s.mc.state = .starting →
    s.mc.config = some c → currentExchange s = some x → endsExchange i s res → s.flc.after = .go →
    s.flc.cursor + 1 = (exchangeList s).length →
    let u := handResults x res (updateNode x res s)
    u = { s with
      pi := { s.pi with cause := u.pi.cause }
      flc := { s.flc with nodes := u.flc.nodes, round := u.flc.round }
      mu := u.mu
      au := u.au
      dc := u.dc } ∧
    ∃ t, exec i s = .next t ∧
      activeEntered c (∀ y ∈ exchangeList s, u.flc.round.get y.entry = false) u t) ∧
  (∀ (i : Instr) (s : State) (x : Exchange) (c : Cfg) (res : ExchangeResult),
    s.mc.config = some c → currentExchange s = some x → endsExchange i s res →
    s.flc.after ≠ .brk → s.flc.after ≠ .first → s.flc.cursor + 1 = (exchangeList s).length →
    let u := handResults x res (updateNode x res s)
    (s.mc.state = .parking →
      let rests := s.flc.fromFirst = true ∧ u.dc.run.state = .idle ∧
        ∀ a, (c.acts.get a).enable = true → (s.au.acts.get a).carried = some (c.acts.get a).rest
      let silent := ∀ y ∈ exchangeList s, u.flc.round.get y.entry = false
      (rests → ∃ t, exec i s = .next t ∧ parkedFrom .modeParked c u t) ∧
      (¬ rests → silent → exec i s = .next (recovering u)) ∧
      (¬ rests → ¬ silent → ∃ t, exec i s = .next t ∧ sweepBegun 0 u t)) ∧
    (s.mc.state = .quiescing → ∃ t, exec i s = .next t ∧ parkedFrom .quiesce c u t)) ∧
  (∀ (s : State) (c : Cfg), s.flc.work = .preamble → s.flc.after ≠ .brk → s.mc.config = some c →
    exchangeList s = [] →
    let u : State := { s with
      flc := { s.flc with after := .go, cursor := 0, fromFirst := true, round := Vector.replicate 30 false } }
    let waits := exec .preambleCompletion s = .next { u with flc := { u.flc with work := .waiting } }
    (s.mc.state = .starting → ∃ t, exec .preambleCompletion s = .next t ∧ activeEntered c False u t) ∧
    (s.mc.state = .quiescing → ∃ t, exec .preambleCompletion s = .next t ∧ parkedFrom .quiesce c u t) ∧
    (s.mc.state = .parking →
      let rests := s.dc.run.state = .idle ∧
        ∀ a, (c.acts.get a).enable = true → (s.au.acts.get a).carried = some (c.acts.get a).rest
      (rests → ∃ t, exec .preambleCompletion s = .next t ∧ parkedFrom .modeParked c u t) ∧ (¬ rests → waits)) ∧
    (s.mc.state = .active → s.be.inFlight = none → waits))

/-! ## The defrost run (chapter 11) -/

/-- R56, R178 to R180, R182 to R186: how a run starts and moves. PREPARE without a pending suspend enters MELT, or the
remembered DRIP, and MELT is left at once where the evaporator is clear or the MELT time stands at its limit; with a
pending suspend and fewer than three suspensions PREPARE ends in SUSPENDED, and with three as without one; the MELT
limit enters DRIP; DRIP enters RESTORE; and the suspend limit aborts the run with cause SUSPEND_TIME: each changes the
run alone, but for the suspend count of the slot that started it. At a pass completion, a suspendable run with a
chilled zone of class P suspends in MELT and DRIP (to three times), has its suspend pending in PREPARE and its resume
count at 0 in SUSPENDED; without one a SUSPENDED run counts the completion and at resume_delay resumes in PREPARE; and
a frost at its limit starts an AUTO run where none is in progress and HVOK is asserted. A PROCEDURE whose start is met
at its POST starts its run in ACTIVE, aborted at once with HVOK deasserted, and ends REFUSED in any other state. The
model's choices: an expiry of a phase the run is not in does nothing (notes/assumptions/8.md); PREPARE_END and DRIP_END
are taken whatever their timer stands at, and MELT_TIME_LIMIT and SUSPEND_TIME_LIMIT by the phase, leaving the time at
its limit (9); the resume count keeps its value when the run resumes and when it is aborted (39); the suspend test
precedes the AUTO request (62). -/
def Obligations.DefrostExpiriesMoveTheRun : Prop :=
  (∀ s : State,
    let r := s.dc.run
    let runs := fun q : RunRec => ({ s with dc := { s.dc with run := q } } : State)
    (r.state = .prepare → r.pendingSuspend = false → r.remembered ≠ some .drip →
      (evaporatorClear s = false → r.meltTime < meltLimit s →
        exec .prepareEnd s = .next (runs { r with state := .melt, phaseTimer := 0, remembered := none })) ∧
      (evaporatorClear s = true ∨ meltLimit s ≤ r.meltTime →
        exec .prepareEnd s = .next (runs { r with state := .drip, phaseTimer := 0, remembered := none }))) ∧
    (r.state = .prepare → r.pendingSuspend = false → r.remembered = some .drip →
      exec .prepareEnd s = .next (runs { r with state := .drip, phaseTimer := 0, remembered := none })) ∧
    (r.state = .prepare → r.pendingSuspend = true → r.suspendCount < 3 → r.suspendedTime < suspendLimit s →
      ∃ t, exec .prepareEnd s = .next t ∧
        t = { runs { r with
            state := .suspended
            remembered := some (if r.remembered = some .drip then .drip else .melt)
            phaseTimer := 0
            suspendCount := r.suspendCount + 1
            resumeCount := 0
            pendingSuspend := false } with du := t.du } ∧
        t.du.stack = s.du.stack ∧ t.du.wait = s.du.wait ∧
        ∀ n, slotRec t n =
          if r.origin = some (.slot n) then { slotRec s n with suspendCount := r.suspendCount + 1 } else slotRec s n) ∧
    (r.state = .prepare → r.pendingSuspend = true → 3 ≤ r.suspendCount → evaporatorClear s = false →
      r.meltTime < meltLimit s →
      exec .prepareEnd s = .next (runs { r with
        state := if r.remembered = some .drip then .drip else .melt
        phaseTimer := 0
        remembered := none
        pendingSuspend := false })) ∧
    (r.state ≠ .prepare → exec .prepareEnd s = .next s) ∧
    (r.state = .melt →
      exec .meltTimeLimit s = .next (runs { r with state := .drip, phaseTimer := 0, meltTime := meltLimit s })) ∧
    (r.state ≠ .melt → exec .meltTimeLimit s = .next s) ∧
    (r.state = .drip → exec .dripEnd s = .next (runs { r with state := .restore, phaseTimer := 0 })) ∧
    (r.state ≠ .drip → exec .dripEnd s = .next s) ∧
    (r.state = .suspended →
      exec .suspendTimeLimit s = .next
        (runs { r with
          state := .restore
          phaseTimer := 0
          suspendedTime := suspendLimit s
          pendingSuspend := false
          remembered := none
          aborted := some .suspendTime })) ∧
    (r.state ≠ .suspended → exec .suspendTimeLimit s = .next s) ∧
    ∀ c, s.mc.config = some c →
      meltLimit s = c.plant.meltMax * 1000 ∧ suspendLimit s = c.plant.suspendMax * 60000 ∧
        (evaporatorClear s = true ↔ ∃ v, channelValue s c.plant.evapOutlet = some v ∧ c.plant.meltEnd ≤ v)) ∧
  (∀ (s : State) (p : PassResult) (c : Cfg), s.mc.state = .active → s.mc.config = some c → s.be.inFlight = some p →
    ∃ t, exec .passCompletion s = .next t ∧ t.dc.last = s.dc.last ∧
      (let r := s.dc.run
      let request := r.suspendable = true ∧ p.chillP = true
      (request → r.state = .melt ∨ r.state = .drip → r.suspendCount < 3 →
        r.suspendedTime < c.plant.suspendMax * 60000 →
        t.dc.run = { r with
          state := .suspended
          remembered := some (if r.state = .drip then .drip else .melt)
          suspendCount := r.suspendCount + 1
          resumeCount := 0
          pendingSuspend := false } ∧
        ∀ n, r.origin = some (.slot n) → (slotRec t n).suspendCount = r.suspendCount + 1) ∧
      (¬ request ∨ 3 ≤ r.suspendCount → r.state = .melt ∨ r.state = .drip → t.dc.run = r) ∧
      (r.state = .prepare → t.dc.run = { r with pendingSuspend := r.pendingSuspend || (r.suspendable && p.chillP) }) ∧
      (r.state = .suspended → request → t.dc.run = { r with resumeCount := 0 }) ∧
      (r.state = .suspended → ¬ request →
        t.dc.run = if r.resumeCount + 1 < c.plant.resumeDelay then { r with resumeCount := r.resumeCount + 1 }
          else { r with resumeCount := r.resumeCount + 1, state := .prepare, phaseTimer := 0 }) ∧
      (r.state = .restore → t.dc.run = r) ∧
      (r.state = .idle →
        t.dc.run =
          if c.plant.autoDefrost = true ∧ t.be.frost = c.plant.frostLimit ∧ accepted s .hvok = true then
            { RunRec.idle with
              state := .prepare
              origin := some .auto
              suspendable := c.plant.autoSuspendable }
          else r))) ∧
  (∀ (n : Slot) (s : State), slotTakes n s → (slotRec s n).state = .empty → s.mc.state ≠ .unconfigured →
    postJudgment s (bodyOf s.xm n) = .ok .procedure →
    startComes false s none (workingOf s .procedure (bodyOf s.xm n)) →
    (∀ z, n ∉ stackOf s z ∧ n ∉ waitOf s z) → (∀ z, waitOf s z = [] ∨ 4 ≤ (stackOf s z).length) →
    ∃ t, exec (.post n) s = .next t ∧
      (s.mc.state = .active →
        t = { atSlotAction n 1 s with du := t.du, dc := { s.dc with run := t.dc.run } } ∧
        slotRec t n = { SlotRec.empty with
          state := .active
          result := .done
          due := some (s.cc.time / 60)
          work := some (workingOf s .procedure (bodyOf s.xm n)) } ∧
        t.dc.run = { RunRec.idle with
          state := if accepted s .hvok then .prepare else .restore
          origin := some (.slot n)
          suspendable := (bodyOf s.xm n).suspendable
          aborted := if accepted s .hvok then none else some .hvok }) ∧
      (s.mc.state ≠ .active →
        t = { atSlotAction n 1 s with
          pi := { (atSlotAction n 1 s).pi with cause := s.pi.cause ||| 0x01 }
          du := t.du } ∧
        slotRec t n = { SlotRec.empty with
          state := .ended
          outcome := some .refused
          result := .notActive
          due := some (s.cc.time / 60) }) ∧
      (∀ m, m ≠ n → slotRec t m = slotRec s m) ∧ ∀ z, stackOf t z = stackOf s z ∧ waitOf t z = waitOf s z)

/-- R187, R54, R55, R57, R147: the end of RESTORE ends the run: the run record returns to IDLE, the last-run record
takes its origin, its abort cause if it has one, its suspend count and its suspended time, the frost becomes 0 where
the run was not aborted, and a slot that started it ends COMPLETED, or ABORTED, with SLOT_END raised. A DAILY PROCEDURE
on which no RETRACT has been taken returns to PENDING instead, with its run counted, the run's outcome and date
recorded and no SLOT_END; one on which a RETRACT has been taken ends. The model's choices: the end is taken whatever
RESTORE's timer stands at (notes/assumptions/9.md), and with no RESTORE in progress the command does nothing (8). -/
def Obligations.RestoreEndEndsTheRun : Prop :=
  (∀ s : State, s.dc.run.state = .restore →
    ∃ t, exec .restoreEnd s = .next t ∧
      t = { s with
        pi := { s.pi with cause := t.pi.cause }
        du := t.du
        be := { s.be with frost := if s.dc.run.aborted = none then 0 else s.be.frost }
        dc := {
          run := RunRec.idle
          last := some ⟨s.dc.run.origin, s.dc.run.aborted, s.dc.run.suspendCount, s.dc.run.suspendedTime⟩ } } ∧
      (s.dc.run.origin = none ∨ s.dc.run.origin = some .auto → t.du = s.du ∧ t.pi = s.pi) ∧
      ∀ n w, s.dc.run.origin = some (.slot n) → (slotRec s n).work = some w →
        ((∀ hm days, w.start ≠ .daily hm days) ∨ w.retracted = true →
          slotRec t n = { slotRec s n with
            state := .ended
            reason := none
            outcome := some (if s.dc.run.aborted = none then .completed else .aborted)
            work := none } ∧
          causeIsSet t .slotEnd = true) ∧
        (∀ hm days, w.start = .daily hm days → w.retracted = false →
          t.pi = s.pi ∧
          slotRec t n = { slotRec s n with
            state := .pending
            reason := none
            runCount := min ((slotRec s n).runCount + 1) 65535
            lastRun := some (if s.dc.run.aborted = none then .completed else .aborted)
            firedOn := (slotRec s n).due.map (· / 1440)
            due := none
            placed := false
            suspendCount := 0
            work := some { w with durationCount := 0, settledCount := 0 } }) ∧
        (∀ m, m ≠ n → slotRec t m = slotRec s m) ∧ ∀ z, n ∉ stackOf t z ∧ n ∉ waitOf t z) ∧
  (∀ s : State, s.dc.run.state ≠ .restore → exec .restoreEnd s = .next s)

/-! ## What a pass computes (chapters 4, 8, 9, 10) -/

/-- R65, R66: a FLOOR acts on lo and a CEILING on hi, each as the rule says, the layer just applied winning a crossing;
a FLOOR never lowers lo, a CEILING never raises hi, and over a band whose sides do not cross, one whose target does not
pass its side leaves the band unchanged. -/
def Obligations.FloorAndCeilingLayersWinCrossings : Prop :=
  (∀ (w : Working) (below : Band), w.combine = .floor →
    let t := w.target
    (applyEntry w below).lo = some (match below.lo with | none => t | some lo => max lo t) ∧
    (∀ lo, (applyEntry w below).lo = some lo →
      (applyEntry w below).hi = match below.hi with
        | none => none
        | some hi => some (if hi < lo then lo else hi)) ∧
    (∀ lo, below.lo = some lo → ∀ lo', (applyEntry w below).lo = some lo' → lo ≤ lo') ∧
    (∀ lo, below.lo = some lo → t ≤ lo → (∀ hi, below.hi = some hi → lo ≤ hi) → applyEntry w below = below)) ∧
  (∀ (w : Working) (below : Band), w.combine = .ceiling →
    let t := w.target
    (applyEntry w below).hi = some (match below.hi with | none => t | some hi => min hi t) ∧
    (∀ hi, (applyEntry w below).hi = some hi →
      (applyEntry w below).lo = match below.lo with
        | none => none
        | some lo => some (if hi < lo then hi else lo)) ∧
    (∀ hi, below.hi = some hi → ∀ hi', (applyEntry w below).hi = some hi' → hi' ≤ hi) ∧
    (∀ hi, below.hi = some hi → hi ≤ t → (∀ lo, below.lo = some lo → lo ≤ hi) → applyEntry w below = below))

/-- R67: a BLEND moves each side by trunc(alpha × (U − L) / 16) toward its own band, or takes its own side where the
lower one is absent; it never passes U and never moves away from it. With both sides present below, or both absent, it
cannot cross; with exactly one absent, a crossing sets the blended side to the side taken from the entry. -/
def Obligations.BlendLayerMovesTowardItsBand : Prop :=
  ∀ (w : Working) (a : Nat) (below : Band), w.combine = .blend → w.alpha = some a → 1 ≤ a → a ≤ 15 →
    0 ≤ w.halfBand →
    let u := w.target - w.halfBand
    let v := w.target + w.halfBand
    let r := applyEntry w below
    (below.lo = none → below.hi = none → r = ⟨some u, some v⟩) ∧
    (∀ lo hi, below.lo = some lo → below.hi = some hi → lo ≤ hi →
      ∃ lo' hi', r = ⟨some lo', some hi'⟩ ∧ lo' = lo + Int.tdiv (a * (u - lo)) 16 ∧
        hi' = hi + Int.tdiv (a * (v - hi)) 16 ∧ lo' ≤ hi' ∧
        (lo ≤ u → lo ≤ lo' ∧ lo' ≤ u) ∧ (u ≤ lo → u ≤ lo' ∧ lo' ≤ lo) ∧
        (hi ≤ v → hi ≤ hi' ∧ hi' ≤ v) ∧ (v ≤ hi → v ≤ hi' ∧ hi' ≤ hi)) ∧
    (∀ lo, below.lo = some lo → below.hi = none →
      let lo' := lo + Int.tdiv (a * (u - lo)) 16
      r = ⟨some (if v < lo' then v else lo'), some v⟩) ∧
    (∀ hi, below.lo = none → below.hi = some hi →
      let hi' := hi + Int.tdiv (a * (v - hi)) 16
      r = ⟨some u, some (if hi' < u then u else hi')⟩)

/-- R61 to R64, R68 to R71: a zone's composition. Every entry of its stack is applied, except that while the zone is
held in its hard state those of class B and C are passed over; the record marks each entry, top to bottom. The band is
built from the bottom of the stack to the top, over both sides absent: each applied entry's combine mode acts on the
band that the applied entries below it leave, a REPLACE putting its own band in place of it. The protect clamp follows:
in high protect hi is at most soft_hi − margin, and after it, in low protect, lo at least low_protect + margin, an
absent side taking the clamp's value and the clamp just made winning a crossing. The class and weight are the zone's
fallback ones without a measurement; else P and 15 in the hard state or in high or low protect; else those of the
topmost applied entry; else none and 0. So whatever entries stand in a stack, with half-bands of at least 0, and
whatever protection is in force, a composed goal with both sides present has lo ≤ hi; in high protect it has hi ≤
soft_hi − margin unless low protect also holds, and in low protect it has lo ≥ low_protect + margin. -/
def Obligations.ComposedGoalNeverCrosses : Prop :=
  (∀ (s : State) (c : Cfg) (z : Zone), s.mc.config = some c →
    let g := composeZone s z
    let p := zget s.pu.zones z
    let entries := (stackOf s z).filterMap fun i => (slotRec s i).work.map fun w => (i, w)
    let passed := fun w : Working => p.hard = true ∧ (w.cls = .b ∨ w.cls = .c)
    let applied := entries.filter fun e => decide (¬ passed e.2)
    let band := protectClamp p (layers (applied.map Prod.snd))
    let allotted := fun k : Machine.Class => match k with
      | .a => AllotClass.a
      | .b => .b
      | .c => .c
    g.entries = entries.map (fun e => (e.1, decide (passed e.2))) ∧
    g.top = applied.head?.map Prod.fst ∧
    g.lo = band.lo ∧ g.hi = band.hi ∧
    (measurement s z = none → g.cls = (zget c.zones z).fbClass.map allotted ∧ g.weight = (zget c.zones z).fbWeight) ∧
    (measurement s z ≠ none → p.hard = true ∨ p.high = true ∨ p.low = true → g.cls = some .p ∧ g.weight = 15) ∧
    (measurement s z ≠ none → p.hard = false → p.high = false → p.low = false →
      (∀ i w rest, applied = (i, w) :: rest → g.cls = some (allotted w.cls) ∧ g.weight = w.weight) ∧
      (applied = [] → g.cls = none ∧ g.weight = 0))) ∧
  (layers [] = ⟨none, none⟩ ∧
    (∀ w below, layers (w :: below) = applyEntry w (layers below)) ∧
    ∀ w below, w.combine = .replace →
      applyEntry w below = ⟨some (w.target - w.halfBand), some (w.target + w.halfBand)⟩) ∧
  (∀ (p : ZoneProtect) (l : Limits) (b : Band), p.limits = some l →
    let ceiling := l.softHi - l.margin
    let floor := l.lowProtect + l.margin
    let hi := match b.hi with
      | some hi => min hi ceiling
      | none => ceiling
    let lowered : Band := ⟨b.lo.map fun lo => min lo hi, some hi⟩
    let raised := fun q : Band =>
      let lo := match q.lo with
        | some lo => max lo floor
        | none => floor
      (⟨some lo, q.hi.map fun hi => max hi lo⟩ : Band)
    protectClamp p b =
      match p.high, p.low with
      | false, false => b
      | true, false => lowered
      | false, true => raised b
      | true, true => raised lowered) ∧
  (∀ (es : List Working) (p : ZoneProtect), (∀ w ∈ es, 0 ≤ w.halfBand) →
    let g := protectClamp p (layers es)
    (∀ lo hi, g.lo = some lo → g.hi = some hi → lo ≤ hi) ∧
    (∀ l, p.limits = some l → p.high = true → p.low = false →
      ∃ hi, g.hi = some hi ∧ hi ≤ l.softHi - l.margin) ∧
    (∀ l, p.limits = some l → p.low = true → ∃ lo, g.lo = some lo ∧ l.lowProtect + l.margin ≤ lo))

/-- R165 to R168: the protection states after an evaluation. High protect is entered at soft_hi and left below soft_hi
− hysteresis, low protect entered at low_protect and left above low_protect + hysteresis, and the hard state entered at
hard_hi and left below soft_hi; a zone without a valid measurement keeps all three. -/
def Obligations.ProtectionStatesFollowTheMeasurement : Prop :=
  ∀ (first : Bool) (fallback : Int) (p : ZoneProtect) (l : Limits), p.limits = some l →
    (∀ m : Int,
      let q := evaluateZone first fallback (some m) p
      (p.high = false → (q.high = true ↔ l.softHi ≤ m)) ∧
      (p.high = true → (q.high = false ↔ m < l.softHi - l.hysteresis)) ∧
      (p.low = false → (q.low = true ↔ m ≤ l.lowProtect)) ∧
      (p.low = true → (q.low = false ↔ l.lowProtect + l.hysteresis < m)) ∧
      (p.hard = false → (q.hard = true ↔ l.hardHi ≤ m)) ∧
      (p.hard = true → (q.hard = false ↔ m < l.softHi)) ∧
      q.limits = p.limits ∧ q.locked = p.locked) ∧
    (let q := evaluateZone first fallback none p
    q.high = p.high ∧ q.low = p.low ∧ q.hard = p.hard ∧ q.limits = p.limits ∧ q.locked = p.locked)

/-- R169 to R172: the allowances. The computed power allowance of a zone is 1000 below soft_hi, 0 at or above hard_hi
and floor(1000 × (hard_hi − m) / (hard_hi − soft_hi)) between, which lies in 0..1000 and, where the two limits stand at
most 1000 apart, in 1..1000 (notes/assumptions/42.md); the computed charge allowance of a pack is 0 at or below
cold_zero, 1000 at or above cold_full and floor(1000 × (m − cold_zero) / (cold_full − cold_zero)) between; without a
valid measurement each is its fallback. What is published of either is the computed value at the first evaluation of an
ACTIVE and wherever it does not rise; where it rises, it rises by at most the rise step. A zone's state is the first
that holds of DEGRADED, HARD, PROTECT (high or low protect), NORMAL (an entry was applied) and IDLE. -/
def Obligations.AllowancesAreComputedFromTheMeasurement : Prop :=
  (∀ (first : Bool) (fallback : Int) (p : ZoneProtect) (l : Limits), p.limits = some l → l.softHi < l.hardHi →
    (∀ m : Int,
      let q := (evaluateZone first fallback (some m) p).power.computed
      (m < l.softHi → q = 1000) ∧ (l.hardHi ≤ m → q = 0) ∧
      (l.softHi ≤ m → m < l.hardHi →
        q * (l.hardHi - l.softHi) ≤ 1000 * (l.hardHi - m) ∧
          1000 * (l.hardHi - m) < (q + 1) * (l.hardHi - l.softHi) ∧ 0 ≤ q ∧ q ≤ 1000 ∧
          (l.hardHi - l.softHi ≤ 1000 → 1 ≤ q)) ∧
      (m = l.softHi → q = 1000)) ∧
    (evaluateZone first fallback none p).power.computed = fallback) ∧
  (∀ (first : Bool) (fallback : Int) (p : ZoneProtect) (a : Allowance) (l : Limits), p.limits = some l →
    l.coldZero < l.coldFull →
    (∀ m : Int,
      let q := (evaluateCharge first fallback (some m) p a).computed
      (m ≤ l.coldZero → q = 0) ∧ (l.coldFull ≤ m → q = 1000) ∧
      (l.coldZero < m → m < l.coldFull →
        q * (l.coldFull - l.coldZero) ≤ 1000 * (m - l.coldZero) ∧
          1000 * (m - l.coldZero) < (q + 1) * (l.coldFull - l.coldZero) ∧ 0 ≤ q ∧ q ≤ 1000)) ∧
    (evaluateCharge first fallback none p a).computed = fallback) ∧
  (∀ (first : Bool) (fallback : Int) (m : Option Int) (p : ZoneProtect) (a : Allowance) (l : Limits),
    p.limits = some l → 0 ≤ l.riseStep →
    let rises := fun (old new : Allowance) =>
      (first = true → new.published = new.computed) ∧
      (first = false → new.computed ≤ old.published → new.published = new.computed) ∧
      (first = false → old.published < new.computed →
        old.published ≤ new.published ∧ new.published ≤ new.computed ∧
          new.published = min new.computed (old.published + l.riseStep))
    rises p.power (evaluateZone first fallback m p).power ∧ rises a (evaluateCharge first fallback m p a)) ∧
  (∀ (degraded applied : Bool) (p : ZoneProtect),
    let state := zoneStateOf degraded p applied
    (state = .degraded ↔ degraded = true) ∧
    (state = .hard ↔ degraded = false ∧ p.hard = true) ∧
    (state = .protect ↔ degraded = false ∧ p.hard = false ∧ (p.high = true ∨ p.low = true)) ∧
    (state = .normal ↔ degraded = false ∧ p.hard = false ∧ p.high = false ∧ p.low = false ∧ applied = true) ∧
    (state = .idle ↔ degraded = false ∧ p.hard = false ∧ p.high = false ∧ p.low = false ∧ applied = false))

/-- R133: the error of a valid measurement m against a composed goal: lo − m where m < lo, hi − m where m > hi, and 0
otherwise, both sides absent and every m inside the band included; it is positive for a zone that is too cold, negative
for one that is too warm, and its size is the distance to the side that m has passed. The demand of a zone with a valid
measurement records it; a zone whose measurement is invalid has no error. -/
def Obligations.ErrorIsTheDistanceToTheGoal : Prop :=
  ∀ (c : ZoneCfg) (g : Composition) (prev : Previous) (i ff : Int),
    (∀ l h, g.lo = some l → g.hi = some h → l ≤ h) →
    (∀ m : Int,
      let e := (demandOf c g prev i ff (some m)).error
      (∀ l, g.lo = some l → m < l → e = some (l - m) ∧ 0 < l - m) ∧
      (∀ h, g.hi = some h → h < m → e = some (h - m) ∧ h - m < 0) ∧
      ((∀ l, g.lo = some l → l ≤ m) → (∀ h, g.hi = some h → m ≤ h) → e = some 0)) ∧
    (demandOf c g prev i ff none).error = none

/-- R127, R129 to R146, R182: how a pass shares what it has. A zone without a valid measurement demands its fallback,
clamped, with an integral of 0; one of class none demands 0; any other clamp(Kp × e + I + FF), I kept where e is 0 or
where the last pass left it unserved with a demand of e's sign, else grown by Ki × e and clamped. Recovery forms H, C
and R = min(H, C, Tmax), its cost rounded up, both reduced where the cost exceeds the pool, and each zone's share
rounded down. ALLOT grants every request where the pool suffices; else the provisional grants where none exceeds its
request; else each that exceeds has its request, and the rest are divided again from what is left. Radiating, chilling,
pumping and resistive heating divide their pools over the flagged zones of a class with a residual, each grant becoming
heat at most the residual; a step that is not available changes nothing. A pass takes the classes in the order P, A, B,
C, and its served heats are the sums of R145. Each availability holds exactly on the conditions of R129 and R130; the
pass adds frost_temp − t_evap to the frost where it pumped heat with the evaporator below frost_temp, else 0; and a
zone of class P with its chill flag set is told to the DC. The model's choices: the arithmetic is exact
(notes/assumptions/55.md), and the pool of a device that is not available is reported as it stood, Pcomp or Pheat
(notes/assumptions/63.md). -/
def Obligations.SharesAndGrantsFollowTheirRules : Prop :=
  (∀ (c : ZoneCfg) (g : Composition) (prev : Previous) (i ff : Int),
    let limit := fun x : Int => if x < -c.cmax then -c.cmax else if c.hmax < x then c.hmax else x
    let unmeasured := demandOf c g prev i ff none
    unmeasured.d = limit c.fbDemand ∧ unmeasured.integral = 0 ∧
    ∀ m e : Int,
      let dm := demandOf c g prev i ff (some m)
      dm.error = some e →
      (g.cls = none → dm.d = 0 ∧ dm.integral = 0) ∧
      (g.cls ≠ none →
        dm.d = limit (c.kp * e + dm.integral + ff) ∧
        (e = 0 ∨ (prev.unserved = true ∧ e.sign = prev.sign) → dm.integral = i) ∧
        (e ≠ 0 → prev.unserved = false ∨ e.sign ≠ prev.sign → 0 ≤ c.imax →
          dm.integral = max (-c.imax) (min c.imax (i + c.ki * e))))) ∧
  (∀ (p : Plant) (a : Account),
    recoveryOf p false a = ⟨0, 0, 0, 0⟩ ∧
    (0 < p.copr → 0 ≤ a.b → 0 ≤ a.comp →
      let v := recoveryOf p true a
      let heats := fun z => 0 < (zget a.zones z).d ∧ (zget a.zones z).paths.sink = true
      let cools := fun z => (zget a.zones z).d < 0 ∧ (zget a.zones z).paths.source = true
      let zones := [Zone.packA, .packB, .drive, .cab, .berth]
      let asked := min (min v.h v.c) p.tmaxHeat
      let pool := min a.b a.comp
      let t := recoveryStage v a
      v.h = (zones.map fun z => if heats z then (zget a.zones z).d else 0).sum ∧
      v.c = (zones.map fun z => if cools z then -(zget a.zones z).d else 0).sum ∧
      (asked * 10 ≤ pool * p.copr → v.r = asked) ∧ (pool * p.copr < asked * 10 → v.r = pool * p.copr / 10) ∧
      (v.cost - 1) * p.copr < v.r * 10 ∧ v.r * 10 ≤ v.cost * p.copr ∧ v.cost ≤ pool ∧
      t = { a with zones := t.zones, b := a.b - v.cost, comp := a.comp - v.cost, compUse := a.compUse + v.cost } ∧
      ∀ z, let q := zget a.zones z
        (heats z → zget t.zones z =
          { q with heat := q.heat - v.r * q.d / v.h, recovered := v.r * q.d / v.h }) ∧
        (cools z → zget t.zones z =
          { q with cool := q.cool - v.r * -q.d / v.c, recovered := -(v.r * -q.d / v.c) }) ∧
        (¬ heats z → ¬ cools z → zget t.zones z = { q with recovered := 0 }))) ∧
  (∀ (pool : Int) (ms : List Member), 0 ≤ pool → (∀ m ∈ ms, 0 < m.request ∧ 1 ≤ m.weight) →
    (ms.map Member.zone).Nodup →
    let gs := allotGrants pool ms
    let total := (ms.map Member.request).sum
    let share := fun m : Member => pool * m.weight * m.request / (ms.map fun k : Member => (k.weight : Int) * k.request).sum
    let beyond := ms.filter fun m => m.request < share m
    (gs.map Prod.fst).Perm (ms.map Member.zone) ∧ (gs.map Prod.snd).sum ≤ pool ∧
    (∀ m ∈ ms, ∀ g, (m.zone, g) ∈ gs → 0 ≤ g ∧ g ≤ m.request) ∧
    (total ≤ pool → ∀ m ∈ ms, (m.zone, m.request) ∈ gs) ∧
    (pool < total → beyond = [] → ∀ m ∈ ms, (m.zone, share m) ∈ gs) ∧
    (pool < total →
      (∀ m ∈ beyond, (m.zone, m.request) ∈ gs) ∧
      ∀ m ∈ ms, m ∉ beyond → beyond ≠ [] → ∀ g,
        (m.zone, g) ∈ gs ↔
          (m.zone, g) ∈ allotGrants (pool - (beyond.map Member.request).sum) (ms.filter fun k => share k ≤ k.request))) ∧
  (∀ (a : Account) (cls : AllotClass) (cop : Int), 0 < cop →
    let members := fun (flag : Paths → Bool) (residual : ZoneAccount → Int) (cost heat : Int) (ms : List Member) =>
      (ms.map Member.zone).Nodup ∧
      ∀ m, m ∈ ms ↔
        let q := zget a.zones m.zone
        q.cls = some cls ∧ flag q.paths = true ∧ 0 < residual q ∧ m.weight = q.weight ∧
          (m.request - 1) * heat < residual q * cost ∧ residual q * cost ≤ m.request * heat
    let served := fun (t : Account) (gs : List (Zone × Int)) (give : Int → ZoneAccount → ZoneAccount) =>
      ∀ z, (∀ g, (z, g) ∈ gs → zget t.zones z = give g (zget a.zones z)) ∧
        ((∀ g, (z, g) ∉ gs) → zget t.zones z = zget a.zones z)
    let spent := fun gs : List (Zone × Int) => (gs.map Prod.snd).sum
    (∃ ms, members Paths.radiate ZoneAccount.cool 1 1 ms ∧
      let gs := allotGrants a.f ms
      let t := radiateClass a cls
      t = { a with zones := t.zones, f := a.f - spent gs, radiated := a.radiated + spent gs } ∧
      served t gs fun g q => { q with cool := q.cool - g, radiated := q.radiated + g }) ∧
    (∃ ms, members Paths.chill ZoneAccount.cool 10 cop ms ∧
      let gs := allotGrants (min a.b a.comp) ms
      let t := chillClass cop true a cls
      t = { a with
        zones := t.zones
        b := a.b - spent gs
        comp := a.comp - spent gs
        compUse := a.compUse + spent gs } ∧
      served t gs fun g q =>
        { q with cool := q.cool - min (g * cop / 10) q.cool, chilled := q.chilled + min (g * cop / 10) q.cool }) ∧
    (∃ ms, members Paths.pump ZoneAccount.heat 10 cop ms ∧
      let gs := allotGrants (min a.b a.comp) ms
      let t := pumpClass cop true a cls
      t = { a with
        zones := t.zones
        b := a.b - spent gs
        comp := a.comp - spent gs
        compUse := a.compUse + spent gs } ∧
      served t gs fun g q =>
        { q with heat := q.heat - min (g * cop / 10) q.heat, pumped := q.pumped + min (g * cop / 10) q.heat }) ∧
    (∃ ms, members Paths.resistive ZoneAccount.heat 1 1 ms ∧
      let gs := allotGrants (min a.b a.heater) ms
      let t := heatClass true a cls
      t = { a with
        zones := t.zones
        b := a.b - spent gs
        heater := a.heater - spent gs
        heatUse := a.heatUse + spent gs } ∧
      served t gs fun g q => { q with heat := q.heat - g, resistive := q.resistive + g }) ∧
    chillClass cop false a cls = a ∧ pumpClass cop false a cls = a ∧ heatClass false a cls = a) ∧
  (∀ (s : State) (c : Cfg),
    let r := computePass s c
    ∃ opened recovered radiated spent : Account,
      (∀ z, zget opened.zones z =
        { cls := (zget s.be.comp z).cls
          weight := (zget s.be.comp z).weight
          paths := zget s.au.paths z
          d := (zget r.zones z).demand
          heat := max (zget r.zones z).demand 0
          cool := max (-(zget r.zones z).demand) 0
          recovered := 0
          radiated := 0
          chilled := 0
          pumped := 0
          resistive := 0 }) ∧
      opened = ⟨opened.zones, r.totals.bStart, c.plant.pcomp, c.plant.pheat, r.totals.f, 0, 0, 0⟩ ∧
      recovered = recoveryStage ⟨r.totals.h, r.totals.c, r.totals.r, r.totals.cost⟩ opened ∧
      recoveryOf c.plant r.totals.recAvail opened = ⟨r.totals.h, r.totals.c, r.totals.r, r.totals.cost⟩ ∧
      radiated = [AllotClass.p, .a, .b, .c].foldl radiateClass recovered ∧
      spent = [AllotClass.p, .a, .b, .c].foldl
        (fun a cls => heatClass r.totals.heatAvail (pumpClass r.totals.copEff r.totals.pumpAvail
          (chillClass c.plant.copc r.totals.compAvail a cls) cls) cls) radiated ∧
      r.totals.bStart = max 0 (s.mu.copy.budget -
        if s.dc.run.state = .melt then min c.plant.meltPower s.mu.copy.budget else 0) ∧
      r.totals.copEff = c.plant.coph - (c.plant.coph - 10) * s.be.frost / c.plant.frostLimit ∧
      r.totals.f = (match channelValue s c.plant.radInlet, channelValue s c.plant.ambient with
        | some inlet, some ambient => min c.plant.fmax (c.plant.krad * max 0 (inlet - ambient))
        | _, _ => 0) ∧
      r.totals.bEnd = spent.b ∧ r.totals.compUse = spent.compUse ∧ r.totals.heatUse = spent.heatUse ∧
      r.totals.radiated = spent.radiated ∧
      r.totals.compLeft = spent.comp ∧ r.totals.heatLeft = spent.heater ∧
      (let healthy := fun src : Source =>
        (∃ i, (c.acts.get i).enable = true ∧ (c.acts.get i).source = some src) ∧
          ∀ i, (c.acts.get i).enable = true → (c.acts.get i).source = some src → (s.au.acts.get i).latch = none
      let ambient := channelValue s c.plant.ambient
      let evaporator := channelValue s c.plant.evapOutlet
      (r.totals.compAvail = true ↔ accepted s .hvok = true ∧ healthy .compressorLoad ∧
        (s.dc.run.state = .idle ∨ s.dc.run.state = .suspended)) ∧
      (r.totals.heatAvail = true ↔ accepted s .hvok = true ∧ healthy .heaterLoad) ∧
      (r.totals.recAvail = true ↔ r.totals.compAvail = true ∧ c.plant.recoveryEnable = true) ∧
      (r.totals.pumpAvail = true ↔ r.totals.compAvail = true ∧ (∃ v, ambient = some v ∧ c.plant.hpMinAmb ≤ v) ∧
        evaporator ≠ none) ∧
      (r.totals.radAvail = true ↔ channelValue s c.plant.radInlet ≠ none ∧ ambient ≠ none) ∧
      (∀ v, evaporator = some v → v < c.plant.frostTemp → (∃ z, 0 < (zget r.zones z).pumped) →
        r.frostAdd = c.plant.frostTemp - v) ∧
      (evaporator = none ∨ (∃ v, evaporator = some v ∧ c.plant.frostTemp ≤ v) ∨
        (∀ z, (zget r.zones z).pumped ≤ 0) → r.frostAdd = 0) ∧
      (r.chillP = true ↔ ∃ z, (zget s.au.paths z).chill = true ∧ (zget s.be.comp z).cls = some .p)) ∧
      ∀ z, let q := zget r.zones z
        let dm := demandOf (zget c.zones z) (zget s.be.comp z) (zget s.be.prev z) (zget s.be.integral z)
          (zget s.mu.copy.ff z) (measurement s z)
        let u := zget spent.zones z
        q.meas = measurement s z ∧ q.error = dm.error ∧ q.integral = dm.integral ∧ q.demand = dm.d ∧
          q.recovered = u.recovered ∧ q.radiated = u.radiated ∧ q.chilled = u.chilled ∧ q.pumped = u.pumped ∧
          q.resistive = u.resistive ∧
          (0 < q.demand → q.served = q.recovered + q.pumped + q.resistive) ∧
          (q.demand < 0 → q.served = q.recovered - q.radiated - q.chilled) ∧ (q.demand = 0 → q.served = 0) ∧
          (q.unserved = true ↔ q.served ≠ q.demand))

/-- R126, R132, R138, R140, R144, R145: a pass under a configuration in its ranges, with a frost in its range, never
overspends. The budget, the compressor and the heater keep what is not spent, none of them goes below 0, the radiated
heat stays within what the radiator can reject, and every zone's served heat is 0 or has the sign of its demand and is
no greater than it. The model's choice: what remains is reported of a device that is not available too
(notes/assumptions/63.md). -/
def Obligations.PassNeverOverspends : Prop :=
  ∀ (s : State) (c : Cfg), checkRanges c = true → 0 ≤ s.be.frost → s.be.frost ≤ c.plant.frostLimit →
    let r := computePass s c
    0 ≤ r.totals.bEnd ∧ r.totals.bStart = r.totals.bEnd + r.totals.compUse + r.totals.heatUse ∧
      0 ≤ r.totals.compUse ∧ 0 ≤ r.totals.heatUse ∧ 0 ≤ r.totals.cost ∧ r.totals.cost ≤ r.totals.compUse ∧
      r.totals.compUse ≤ c.plant.pcomp ∧ r.totals.heatUse ≤ c.plant.pheat ∧
      r.totals.compLeft = c.plant.pcomp - r.totals.compUse ∧ r.totals.heatLeft = c.plant.pheat - r.totals.heatUse ∧
      0 ≤ r.totals.radiated ∧ r.totals.radiated ≤ r.totals.f ∧
      (r.totals.compAvail = false → r.totals.compUse = 0) ∧ (r.totals.heatAvail = false → r.totals.heatUse = 0) ∧
      ∀ z, let q := zget r.zones z
        (0 ≤ q.demand → 0 ≤ q.served ∧ q.served ≤ q.demand) ∧ (q.demand ≤ 0 → q.demand ≤ q.served ∧ q.served ≤ 0)

/-- R157: a good DRIVE reply whose fault byte is not 0 gives its fault condition to every enabled actuator of the node,
whichever output it drives: STALL where bit 0 is set, else OVERTEMP where bit 1 is, else NODE_FAULT; each that is not
latched, at a node that has not FAILED, latches with that kind. A fault byte of 0 gives none, and an actuator that is
not enabled or not on the node is as before. -/
def Obligations.FaultByteSpeaksForTheWholeNode : Prop :=
  ∀ (s : State) (c : Cfg) (address byte : Nat) (values : List Nat) (node : NodeState),
    s.mc.config = some c → byte < 256 → node ≠ .failed →
    let t := takeDrive address (some (values, byte)) node s
    (∀ i, (c.acts.get i).enable = true → (c.acts.get i).node = address → (s.au.acts.get i).latch = none →
      let latch := (t.au.acts.get i).latch
      (byte % 2 = 1 → latch = some .stall) ∧
      (byte % 4 = 2 → latch = some .overtemp) ∧
      (byte % 4 = 0 → byte ≠ 0 → latch = some .nodeFault) ∧
      (byte = 0 → latch ≠ some .stall ∧ latch ≠ some .overtemp ∧ latch ≠ some .nodeFault)) ∧
    ∀ i, (c.acts.get i).enable = false ∨ (c.acts.get i).node ≠ address → t.au.acts.get i = s.au.acts.get i
end

