-- ==== Sys2Proof/Laws/State.lean ====
section
/-! SUPPORT. What an update of one block does to each field of the state: one lemma for each field of each update. -/

namespace Sys2Proof.Machine

variable (s : State)

/-! ### `onPi` -/

@[simp] theorem onPi_pending (f : PI → PI) : (s.onPi f).pending = s.pending := rfl
@[simp] theorem onPi_resetHeld (f : PI → PI) : (s.onPi f).resetHeld = s.resetHeld := rfl
@[simp] theorem onPi_xm (f : PI → PI) : (s.onPi f).xm = s.xm := rfl
@[simp] theorem onPi_pi (f : PI → PI) : (s.onPi f).pi = f s.pi := rfl
@[simp] theorem onPi_mc (f : PI → PI) : (s.onPi f).mc = s.mc := rfl
@[simp] theorem onPi_du (f : PI → PI) : (s.onPi f).du = s.du := rfl
@[simp] theorem onPi_cc (f : PI → PI) : (s.onPi f).cc = s.cc := rfl
@[simp] theorem onPi_flc (f : PI → PI) : (s.onPi f).flc = s.flc := rfl
@[simp] theorem onPi_mu (f : PI → PI) : (s.onPi f).mu = s.mu := rfl
@[simp] theorem onPi_be (f : PI → PI) : (s.onPi f).be = s.be := rfl
@[simp] theorem onPi_au (f : PI → PI) : (s.onPi f).au = s.au := rfl
@[simp] theorem onPi_pu (f : PI → PI) : (s.onPi f).pu = s.pu := rfl
@[simp] theorem onPi_dc (f : PI → PI) : (s.onPi f).dc = s.dc := rfl

/-! ### `onMc` -/

@[simp] theorem onMc_pending (f : MC → MC) : (s.onMc f).pending = s.pending := rfl
@[simp] theorem onMc_resetHeld (f : MC → MC) : (s.onMc f).resetHeld = s.resetHeld := rfl
@[simp] theorem onMc_xm (f : MC → MC) : (s.onMc f).xm = s.xm := rfl
@[simp] theorem onMc_pi (f : MC → MC) : (s.onMc f).pi = s.pi := rfl
@[simp] theorem onMc_mc (f : MC → MC) : (s.onMc f).mc = f s.mc := rfl
@[simp] theorem onMc_du (f : MC → MC) : (s.onMc f).du = s.du := rfl
@[simp] theorem onMc_cc (f : MC → MC) : (s.onMc f).cc = s.cc := rfl
@[simp] theorem onMc_flc (f : MC → MC) : (s.onMc f).flc = s.flc := rfl
@[simp] theorem onMc_mu (f : MC → MC) : (s.onMc f).mu = s.mu := rfl
@[simp] theorem onMc_be (f : MC → MC) : (s.onMc f).be = s.be := rfl
@[simp] theorem onMc_au (f : MC → MC) : (s.onMc f).au = s.au := rfl
@[simp] theorem onMc_pu (f : MC → MC) : (s.onMc f).pu = s.pu := rfl
@[simp] theorem onMc_dc (f : MC → MC) : (s.onMc f).dc = s.dc := rfl

/-! ### `onDu` -/

@[simp] theorem onDu_pending (f : DU → DU) : (s.onDu f).pending = s.pending := rfl
@[simp] theorem onDu_resetHeld (f : DU → DU) : (s.onDu f).resetHeld = s.resetHeld := rfl
@[simp] theorem onDu_xm (f : DU → DU) : (s.onDu f).xm = s.xm := rfl
@[simp] theorem onDu_pi (f : DU → DU) : (s.onDu f).pi = s.pi := rfl
@[simp] theorem onDu_mc (f : DU → DU) : (s.onDu f).mc = s.mc := rfl
@[simp] theorem onDu_du (f : DU → DU) : (s.onDu f).du = f s.du := rfl
@[simp] theorem onDu_cc (f : DU → DU) : (s.onDu f).cc = s.cc := rfl
@[simp] theorem onDu_flc (f : DU → DU) : (s.onDu f).flc = s.flc := rfl
@[simp] theorem onDu_mu (f : DU → DU) : (s.onDu f).mu = s.mu := rfl
@[simp] theorem onDu_be (f : DU → DU) : (s.onDu f).be = s.be := rfl
@[simp] theorem onDu_au (f : DU → DU) : (s.onDu f).au = s.au := rfl
@[simp] theorem onDu_pu (f : DU → DU) : (s.onDu f).pu = s.pu := rfl
@[simp] theorem onDu_dc (f : DU → DU) : (s.onDu f).dc = s.dc := rfl

/-! ### `onCc` -/

@[simp] theorem onCc_pending (f : CC → CC) : (s.onCc f).pending = s.pending := rfl
@[simp] theorem onCc_resetHeld (f : CC → CC) : (s.onCc f).resetHeld = s.resetHeld := rfl
@[simp] theorem onCc_xm (f : CC → CC) : (s.onCc f).xm = s.xm := rfl
@[simp] theorem onCc_pi (f : CC → CC) : (s.onCc f).pi = s.pi := rfl
@[simp] theorem onCc_mc (f : CC → CC) : (s.onCc f).mc = s.mc := rfl
@[simp] theorem onCc_du (f : CC → CC) : (s.onCc f).du = s.du := rfl
@[simp] theorem onCc_cc (f : CC → CC) : (s.onCc f).cc = f s.cc := rfl
@[simp] theorem onCc_flc (f : CC → CC) : (s.onCc f).flc = s.flc := rfl
@[simp] theorem onCc_mu (f : CC → CC) : (s.onCc f).mu = s.mu := rfl
@[simp] theorem onCc_be (f : CC → CC) : (s.onCc f).be = s.be := rfl
@[simp] theorem onCc_au (f : CC → CC) : (s.onCc f).au = s.au := rfl
@[simp] theorem onCc_pu (f : CC → CC) : (s.onCc f).pu = s.pu := rfl
@[simp] theorem onCc_dc (f : CC → CC) : (s.onCc f).dc = s.dc := rfl

/-! ### `onFlc` -/

@[simp] theorem onFlc_pending (f : FLC → FLC) : (s.onFlc f).pending = s.pending := rfl
@[simp] theorem onFlc_resetHeld (f : FLC → FLC) : (s.onFlc f).resetHeld = s.resetHeld := rfl
@[simp] theorem onFlc_xm (f : FLC → FLC) : (s.onFlc f).xm = s.xm := rfl
@[simp] theorem onFlc_pi (f : FLC → FLC) : (s.onFlc f).pi = s.pi := rfl
@[simp] theorem onFlc_mc (f : FLC → FLC) : (s.onFlc f).mc = s.mc := rfl
@[simp] theorem onFlc_du (f : FLC → FLC) : (s.onFlc f).du = s.du := rfl
@[simp] theorem onFlc_cc (f : FLC → FLC) : (s.onFlc f).cc = s.cc := rfl
@[simp] theorem onFlc_flc (f : FLC → FLC) : (s.onFlc f).flc = f s.flc := rfl
@[simp] theorem onFlc_mu (f : FLC → FLC) : (s.onFlc f).mu = s.mu := rfl
@[simp] theorem onFlc_be (f : FLC → FLC) : (s.onFlc f).be = s.be := rfl
@[simp] theorem onFlc_au (f : FLC → FLC) : (s.onFlc f).au = s.au := rfl
@[simp] theorem onFlc_pu (f : FLC → FLC) : (s.onFlc f).pu = s.pu := rfl
@[simp] theorem onFlc_dc (f : FLC → FLC) : (s.onFlc f).dc = s.dc := rfl

/-! ### `onMu` -/

@[simp] theorem onMu_pending (f : MU → MU) : (s.onMu f).pending = s.pending := rfl
@[simp] theorem onMu_resetHeld (f : MU → MU) : (s.onMu f).resetHeld = s.resetHeld := rfl
@[simp] theorem onMu_xm (f : MU → MU) : (s.onMu f).xm = s.xm := rfl
@[simp] theorem onMu_pi (f : MU → MU) : (s.onMu f).pi = s.pi := rfl
@[simp] theorem onMu_mc (f : MU → MU) : (s.onMu f).mc = s.mc := rfl
@[simp] theorem onMu_du (f : MU → MU) : (s.onMu f).du = s.du := rfl
@[simp] theorem onMu_cc (f : MU → MU) : (s.onMu f).cc = s.cc := rfl
@[simp] theorem onMu_flc (f : MU → MU) : (s.onMu f).flc = s.flc := rfl
@[simp] theorem onMu_mu (f : MU → MU) : (s.onMu f).mu = f s.mu := rfl
@[simp] theorem onMu_be (f : MU → MU) : (s.onMu f).be = s.be := rfl
@[simp] theorem onMu_au (f : MU → MU) : (s.onMu f).au = s.au := rfl
@[simp] theorem onMu_pu (f : MU → MU) : (s.onMu f).pu = s.pu := rfl
@[simp] theorem onMu_dc (f : MU → MU) : (s.onMu f).dc = s.dc := rfl

/-! ### `onBe` -/

@[simp] theorem onBe_pending (f : BE → BE) : (s.onBe f).pending = s.pending := rfl
@[simp] theorem onBe_resetHeld (f : BE → BE) : (s.onBe f).resetHeld = s.resetHeld := rfl
@[simp] theorem onBe_xm (f : BE → BE) : (s.onBe f).xm = s.xm := rfl
@[simp] theorem onBe_pi (f : BE → BE) : (s.onBe f).pi = s.pi := rfl
@[simp] theorem onBe_mc (f : BE → BE) : (s.onBe f).mc = s.mc := rfl
@[simp] theorem onBe_du (f : BE → BE) : (s.onBe f).du = s.du := rfl
@[simp] theorem onBe_cc (f : BE → BE) : (s.onBe f).cc = s.cc := rfl
@[simp] theorem onBe_flc (f : BE → BE) : (s.onBe f).flc = s.flc := rfl
@[simp] theorem onBe_mu (f : BE → BE) : (s.onBe f).mu = s.mu := rfl
@[simp] theorem onBe_be (f : BE → BE) : (s.onBe f).be = f s.be := rfl
@[simp] theorem onBe_au (f : BE → BE) : (s.onBe f).au = s.au := rfl
@[simp] theorem onBe_pu (f : BE → BE) : (s.onBe f).pu = s.pu := rfl
@[simp] theorem onBe_dc (f : BE → BE) : (s.onBe f).dc = s.dc := rfl

/-! ### `onAu` -/

@[simp] theorem onAu_pending (f : AU → AU) : (s.onAu f).pending = s.pending := rfl
@[simp] theorem onAu_resetHeld (f : AU → AU) : (s.onAu f).resetHeld = s.resetHeld := rfl
@[simp] theorem onAu_xm (f : AU → AU) : (s.onAu f).xm = s.xm := rfl
@[simp] theorem onAu_pi (f : AU → AU) : (s.onAu f).pi = s.pi := rfl
@[simp] theorem onAu_mc (f : AU → AU) : (s.onAu f).mc = s.mc := rfl
@[simp] theorem onAu_du (f : AU → AU) : (s.onAu f).du = s.du := rfl
@[simp] theorem onAu_cc (f : AU → AU) : (s.onAu f).cc = s.cc := rfl
@[simp] theorem onAu_flc (f : AU → AU) : (s.onAu f).flc = s.flc := rfl
@[simp] theorem onAu_mu (f : AU → AU) : (s.onAu f).mu = s.mu := rfl
@[simp] theorem onAu_be (f : AU → AU) : (s.onAu f).be = s.be := rfl
@[simp] theorem onAu_au (f : AU → AU) : (s.onAu f).au = f s.au := rfl
@[simp] theorem onAu_pu (f : AU → AU) : (s.onAu f).pu = s.pu := rfl
@[simp] theorem onAu_dc (f : AU → AU) : (s.onAu f).dc = s.dc := rfl

/-! ### `onPu` -/

@[simp] theorem onPu_pending (f : PU → PU) : (s.onPu f).pending = s.pending := rfl
@[simp] theorem onPu_resetHeld (f : PU → PU) : (s.onPu f).resetHeld = s.resetHeld := rfl
@[simp] theorem onPu_xm (f : PU → PU) : (s.onPu f).xm = s.xm := rfl
@[simp] theorem onPu_pi (f : PU → PU) : (s.onPu f).pi = s.pi := rfl
@[simp] theorem onPu_mc (f : PU → PU) : (s.onPu f).mc = s.mc := rfl
@[simp] theorem onPu_du (f : PU → PU) : (s.onPu f).du = s.du := rfl
@[simp] theorem onPu_cc (f : PU → PU) : (s.onPu f).cc = s.cc := rfl
@[simp] theorem onPu_flc (f : PU → PU) : (s.onPu f).flc = s.flc := rfl
@[simp] theorem onPu_mu (f : PU → PU) : (s.onPu f).mu = s.mu := rfl
@[simp] theorem onPu_be (f : PU → PU) : (s.onPu f).be = s.be := rfl
@[simp] theorem onPu_au (f : PU → PU) : (s.onPu f).au = s.au := rfl
@[simp] theorem onPu_pu (f : PU → PU) : (s.onPu f).pu = f s.pu := rfl
@[simp] theorem onPu_dc (f : PU → PU) : (s.onPu f).dc = s.dc := rfl

/-! ### `onDc` -/

@[simp] theorem onDc_pending (f : DC → DC) : (s.onDc f).pending = s.pending := rfl
@[simp] theorem onDc_resetHeld (f : DC → DC) : (s.onDc f).resetHeld = s.resetHeld := rfl
@[simp] theorem onDc_xm (f : DC → DC) : (s.onDc f).xm = s.xm := rfl
@[simp] theorem onDc_pi (f : DC → DC) : (s.onDc f).pi = s.pi := rfl
@[simp] theorem onDc_mc (f : DC → DC) : (s.onDc f).mc = s.mc := rfl
@[simp] theorem onDc_du (f : DC → DC) : (s.onDc f).du = s.du := rfl
@[simp] theorem onDc_cc (f : DC → DC) : (s.onDc f).cc = s.cc := rfl
@[simp] theorem onDc_flc (f : DC → DC) : (s.onDc f).flc = s.flc := rfl
@[simp] theorem onDc_mu (f : DC → DC) : (s.onDc f).mu = s.mu := rfl
@[simp] theorem onDc_be (f : DC → DC) : (s.onDc f).be = s.be := rfl
@[simp] theorem onDc_au (f : DC → DC) : (s.onDc f).au = s.au := rfl
@[simp] theorem onDc_pu (f : DC → DC) : (s.onDc f).pu = s.pu := rfl
@[simp] theorem onDc_dc (f : DC → DC) : (s.onDc f).dc = f s.dc := rfl

end Sys2Proof.Machine
end

