-- ==== Sys2Proof/Laws/Tables.lean ====
section
/-! SUPPORT. The tables: what reading one item gives after another has been replaced. -/

namespace Sys2Proof.Machine

@[simp] theorem zget_zmk {α : Type} (f : Zone → α) (z : Zone) : zget (zmk f) z = f z := by cases z <;> rfl

@[simp] theorem zget_zset_self {α : Type} (t : Zones α) (z : Zone) (x : α) : zget (zset t z x) z = x := by
  cases z <;> rfl

theorem zget_zset {α : Type} (t : Zones α) (z w : Zone) (x : α) :
    zget (zset t z x) w = if w = z then x else zget t w := by
  cases z <;> cases w <;> rfl

/-- Two tables with the same item for every zone are the same table. -/
theorem zones_ext {α : Type} {t u : Zones α} (h : ∀ z, zget t z = zget u z) : t = u := by
  cases t; cases u
  have a := h .packA
  have b := h .packB
  have c := h .drive
  have d := h .cab
  have e := h .berth
  simp only [zget] at a b c d e
  subst a b c d e
  rfl

@[simp] theorem mem_allZones (z : Zone) : z ∈ allZones := by cases z <;> decide

@[simp] theorem lget_lset_self {α : Type} (t : Lines α) (l : Line) (x : α) : lget (lset t l x) l = x := by
  cases l <;> rfl

theorem lget_lset {α : Type} (t : Lines α) (l m : Line) (x : α) :
    lget (lset t l x) m = if m = l then x else lget t m := by
  cases l <;> cases m <;> rfl

theorem get_eq_getElem {α : Type} {n : Nat} (v : Vector α n) (i : Fin n) : v.get i = v[i.val]'i.isLt := rfl

@[simp] theorem vmap_get {α β : Type} {n : Nat} (v : Vector α n) (f : Fin n → α → β) (i : Fin n) :
    (vmap v f).get i = f i (v.get i) := by
  rw [get_eq_getElem, vmap, Vector.getElem_ofFn]

theorem vset_get {α : Type} {n : Nat} (v : Vector α n) (i j : Fin n) (x : α) :
    (vset v i x).get j = if j = i then x else v.get j := by
  rw [get_eq_getElem, get_eq_getElem, vset, Vector.getElem_set]
  by_cases h : j = i
  · simp [h]
  · have h' : i.val ≠ j.val := fun e => h (Fin.ext e.symm)
    simp [h, h']

@[simp] theorem vset_get_self {α : Type} {n : Nat} (v : Vector α n) (i : Fin n) (x : α) :
    (vset v i x).get i = x := by simp [vset_get]

@[simp] theorem replicate_get {α : Type} {n : Nat} (x : α) (i : Fin n) : (Vector.replicate n x).get i = x := by
  rw [get_eq_getElem, Vector.getElem_replicate]

/-- A slot's record after a slot's record is replaced. -/
theorem slotRec_setSlot (s : State) (i j : Slot) (r : SlotRec) :
    slotRec (setSlot i r s) j = if j = i then r else slotRec s j := by
  simp only [slotRec, setSlot, State.onDu, vset_get]

@[simp] theorem slotRec_setSlot_self (s : State) (i : Slot) (r : SlotRec) : slotRec (setSlot i r s) i = r := by
  simp [slotRec_setSlot]

/-- A slot's record after a slot's record is changed by a function. -/
theorem slotRec_mapSlot (s : State) (i j : Slot) (f : SlotRec → SlotRec) :
    slotRec (mapSlot i f s) j = if j = i then f (slotRec s i) else slotRec s j := by
  simp only [mapSlot, slotRec_setSlot]

end Sys2Proof.Machine
end

