-- ==== Sys2Proof/Laws/Frames.lean ====
section
/-! SUPPORT. What the blocks' operations leave alone. `corePart` gathers the state that only the mode actions, the
clock, the port and the resets change; `linkPart` the link and the period timer. One lemma for each operation says
that it keeps them. -/

namespace Sys2Proof.Machine

/-- The queue, the reset pin, the serial port with SDO, the host-written words, the clock, the configuration, the device
state, the period lock and BUSY. -/
def corePart (s : State) :
    List Instr × Bool × PortPhase × Word × Memory × CC × Option Cfg × DeviceState × LockState × Bool :=
  (s.pending, s.resetHeld, s.pi.port, s.pi.sdo, s.xm, s.cc, s.mc.config, s.mc.state, s.be.lock, s.pi.busy)

/-- The Field Link Controller and the period timer. -/
def linkPart (s : State) : FLC × Option Nat := (s.flc, s.be.timer)

/-- A fold keeps what each of its steps keeps. -/
theorem foldl_keeps {α β γ : Type} (p : β → γ) (f : β → α → β) (h : ∀ b a, p (f b a) = p b) (l : List α) (b : β) :
    p (l.foldl f b) = p b := by
  induction l generalizing b with
  | nil => rfl
  | cons a l ih => exact (ih (f b a)).trans (h b a)

@[simp] theorem onDu_core (f : DU → DU) (s : State) : corePart (s.onDu f) = corePart s := rfl

@[simp] theorem onDu_link (f : DU → DU) (s : State) : linkPart (s.onDu f) = linkPart s := rfl

@[simp] theorem onMu_core (f : MU → MU) (s : State) : corePart (s.onMu f) = corePart s := rfl

@[simp] theorem onMu_link (f : MU → MU) (s : State) : linkPart (s.onMu f) = linkPart s := rfl

@[simp] theorem onAu_core (f : AU → AU) (s : State) : corePart (s.onAu f) = corePart s := rfl

@[simp] theorem onAu_link (f : AU → AU) (s : State) : linkPart (s.onAu f) = linkPart s := rfl

@[simp] theorem onPu_core (f : PU → PU) (s : State) : corePart (s.onPu f) = corePart s := rfl

@[simp] theorem onPu_link (f : PU → PU) (s : State) : linkPart (s.onPu f) = linkPart s := rfl

@[simp] theorem onDc_core (f : DC → DC) (s : State) : corePart (s.onDc f) = corePart s := rfl

@[simp] theorem onDc_link (f : DC → DC) (s : State) : linkPart (s.onDc f) = linkPart s := rfl

@[simp] theorem onFlc_core (f : FLC → FLC) (s : State) : corePart (s.onFlc f) = corePart s := rfl

@[simp] theorem raise_core (f : CauseFlag) (s : State) : corePart (raise f s) = corePart s :=
  by first | (simp [raise]; done) | rfl

@[simp] theorem raise_link (f : CauseFlag) (s : State) : linkPart (raise f s) = linkPart s :=
  by first | (simp [raise]; done) | rfl

@[simp] theorem raiseIf_core (b : Bool) (f : CauseFlag) (s : State) : corePart (raiseIf b f s) = corePart s := by
  cases b <;> rfl

@[simp] theorem raiseIf_link (b : Bool) (f : CauseFlag) (s : State) : linkPart (raiseIf b f s) = linkPart s := by
  cases b <;> rfl

@[simp] theorem recordAccess_core (k : AccessKind) (a : Addr) (s : State) :
    corePart (recordAccess k a s) = corePart s :=
  by first | (simp [recordAccess]; done) | rfl

@[simp] theorem recordAccess_link (k : AccessKind) (a : Addr) (s : State) :
    linkPart (recordAccess k a s) = linkPart s :=
  by first | (simp [recordAccess]; done) | rfl

@[simp] theorem recordAction_core (a : CtrlAction) (r : CtrlResult) (s : State) :
    corePart (recordAction a r s) = corePart s :=
  by first | (simp [recordAction]; done) | rfl

@[simp] theorem recordAction_link (a : CtrlAction) (r : CtrlResult) (s : State) :
    linkPart (recordAction a r s) = linkPart s :=
  by first | (simp [recordAction]; done) | rfl

@[simp] theorem storeCtrl_core (v : Word) (s : State) : corePart (storeCtrl v s) = corePart s :=
  by first | (simp [storeCtrl]; done) | rfl

@[simp] theorem storeCtrl_link (v : Word) (s : State) : linkPart (storeCtrl v s) = linkPart s :=
  by first | (simp [storeCtrl]; done) | rfl

@[simp] theorem clearCauses_core (w : Word) (s : State) : corePart (clearCauses w s) = corePart s :=
  by first | (simp [clearCauses]; done) | rfl

@[simp] theorem clearCauses_link (w : Word) (s : State) : linkPart (clearCauses w s) = linkPart s :=
  by first | (simp [clearCauses]; done) | rfl

@[simp] theorem storeMask_core (w : Word) (s : State) : corePart (storeMask w s) = corePart s :=
  by first | (simp [storeMask]; done) | rfl

@[simp] theorem storeMask_link (w : Word) (s : State) : linkPart (storeMask w s) = linkPart s :=
  by first | (simp [storeMask]; done) | rfl

@[simp] theorem refuseUnknown_core (s : State) : corePart (refuseUnknown s) = corePart s :=
  by first | (simp [refuseUnknown]; done) | rfl

@[simp] theorem refuseUnknown_link (s : State) : linkPart (refuseUnknown s) = linkPart s :=
  by first | (simp [refuseUnknown]; done) | rfl

@[simp] theorem setSlot_core (i : Slot) (r : SlotRec) (s : State) : corePart (setSlot i r s) = corePart s :=
  by simp [setSlot]

@[simp] theorem setSlot_link (i : Slot) (r : SlotRec) (s : State) : linkPart (setSlot i r s) = linkPart s :=
  by simp [setSlot]

@[simp] theorem mapSlot_core (i : Slot) (f : SlotRec → SlotRec) (s : State) :
    corePart (mapSlot i f s) = corePart s :=
  by simp [mapSlot]

@[simp] theorem mapSlot_link (i : Slot) (f : SlotRec → SlotRec) (s : State) :
    linkPart (mapSlot i f s) = linkPart s :=
  by simp [mapSlot]

@[simp] theorem setStack_core (z : Zone) (l : List Slot) (s : State) : corePart (setStack z l s) = corePart s :=
  by simp [setStack]

@[simp] theorem setStack_link (z : Zone) (l : List Slot) (s : State) : linkPart (setStack z l s) = linkPart s :=
  by simp [setStack]

@[simp] theorem setWait_core (z : Zone) (l : List Slot) (s : State) : corePart (setWait z l s) = corePart s :=
  by simp [setWait]

@[simp] theorem setWait_link (z : Zone) (l : List Slot) (s : State) : linkPart (setWait z l s) = linkPart s :=
  by simp [setWait]

@[simp] theorem leaveLists_core (i : Slot) (s : State) : corePart (leaveLists i s) = corePart s :=
  by simp [leaveLists]

@[simp] theorem leaveLists_link (i : Slot) (s : State) : linkPart (leaveLists i s) = linkPart s :=
  by simp [leaveLists]

@[simp] theorem onNodeChannels_core (a : Nat) (f : ChannelCfg → ChannelRec → ChannelRec) (s : State) :
    corePart (onNodeChannels a f s) = corePart s := by
  simp only [onNodeChannels]
  repeat' split
  all_goals simp

@[simp] theorem onNodeChannels_link (a : Nat) (f : ChannelCfg → ChannelRec → ChannelRec) (s : State) :
    linkPart (onNodeChannels a f s) = linkPart s := by
  simp only [onNodeChannels]
  repeat' split
  all_goals simp

@[simp] theorem takeSample_core (a : Nat) (v : Option (List Nat)) (n : NodeState) (s : State) :
    corePart (takeSample a v n s) = corePart s :=
  onNodeChannels_core _ _ s

@[simp] theorem takeSample_link (a : Nat) (v : Option (List Nat)) (n : NodeState) (s : State) :
    linkPart (takeSample a v n s) = linkPart s :=
  onNodeChannels_link _ _ s

@[simp] theorem ageChannels_core (s : State) : corePart (ageChannels s) = corePart s := by
  simp only [ageChannels]
  repeat' split
  all_goals simp

@[simp] theorem ageChannels_link (s : State) : linkPart (ageChannels s) = linkPart s := by
  simp only [ageChannels]
  repeat' split
  all_goals simp

@[simp] theorem parkChannels_core (s : State) : corePart (parkChannels s) = corePart s := by
  simp only [parkChannels]
  repeat' split
  all_goals simp

@[simp] theorem parkChannels_link (s : State) : linkPart (parkChannels s) = linkPart s := by
  simp only [parkChannels]
  repeat' split
  all_goals simp

@[simp] theorem clearChannels_core (s : State) : corePart (clearChannels s) = corePart s := by simp [clearChannels]

@[simp] theorem clearChannels_link (s : State) : linkPart (clearChannels s) = linkPart s := by simp [clearChannels]

@[simp] theorem handUnknownToChannels_core (s : State) : corePart (handUnknownToChannels s) = corePart s :=
  by simp [handUnknownToChannels]

@[simp] theorem handUnknownToChannels_link (s : State) : linkPart (handUnknownToChannels s) = linkPart s :=
  by simp [handUnknownToChannels]

@[simp] theorem recomputeMeasurements_core (s : State) : corePart (recomputeMeasurements s) = corePart s := by
  simp only [recomputeMeasurements]
  repeat' split
  all_goals simp

@[simp] theorem recomputeMeasurements_link (s : State) : linkPart (recomputeMeasurements s) = linkPart s := by
  simp only [recomputeMeasurements]
  repeat' split
  all_goals simp

@[simp] theorem clearDegraded_core (s : State) : corePart (clearDegraded s) = corePart s := by simp [clearDegraded]

@[simp] theorem clearDegraded_link (s : State) : linkPart (clearDegraded s) = linkPart s := by simp [clearDegraded]

@[simp] theorem takeCommit_core (s : State) : corePart (takeCommit s) = corePart s := by simp [takeCommit]

@[simp] theorem takeCommit_link (s : State) : linkPart (takeCommit s) = linkPart s := by simp [takeCommit]

@[simp] theorem degradeCopy_core (s : State) : corePart (degradeCopy s) = corePart s := by simp [degradeCopy]

@[simp] theorem degradeCopy_link (s : State) : linkPart (degradeCopy s) = linkPart s := by simp [degradeCopy]

@[simp] theorem copyGoesStale_core (s : State) : corePart (copyGoesStale s) = corePart s := by simp [copyGoesStale]

@[simp] theorem copyGoesStale_link (s : State) : linkPart (copyGoesStale s) = linkPart s := by simp [copyGoesStale]

@[simp] theorem judgeCopy_core (s : State) : corePart (judgeCopy s) = corePart s := by
  simp only [judgeCopy]
  repeat' split
  all_goals simp

@[simp] theorem judgeCopy_link (s : State) : linkPart (judgeCopy s) = linkPart s := by
  simp only [judgeCopy]
  repeat' split
  all_goals simp

@[simp] theorem onRun_core (f : RunRec → RunRec) (s : State) : corePart (onRun f s) = corePart s := rfl

@[simp] theorem onRun_link (f : RunRec → RunRec) (s : State) : linkPart (onRun f s) = linkPart s := rfl

@[simp] theorem enterDrip_core (s : State) : corePart (enterDrip s) = corePart s := by simp [enterDrip]

@[simp] theorem enterDrip_link (s : State) : linkPart (enterDrip s) = linkPart s := by simp [enterDrip]

@[simp] theorem meltTest_core (s : State) : corePart (meltTest s) = corePart s := by
  simp only [meltTest]
  repeat' split
  all_goals simp

@[simp] theorem meltTest_link (s : State) : linkPart (meltTest s) = linkPart s := by
  simp only [meltTest]
  repeat' split
  all_goals simp

@[simp] theorem enterMelt_core (s : State) : corePart (enterMelt s) = corePart s := by
  simp only [enterMelt]
  repeat' split
  all_goals simp

@[simp] theorem enterMelt_link (s : State) : linkPart (enterMelt s) = linkPart s := by
  simp only [enterMelt]
  repeat' split
  all_goals simp

@[simp] theorem startRun_core (o : Origin) (b : Bool) (s : State) : corePart (startRun o b s) = corePart s :=
  by simp [startRun]

@[simp] theorem startRun_link (o : Origin) (b : Bool) (s : State) : linkPart (startRun o b s) = linkPart s :=
  by simp [startRun]

@[simp] theorem abortRun_core (c : AbortCause) (s : State) : corePart (abortRun c s) = corePart s := by
  simp only [abortRun]
  repeat' split
  all_goals simp

@[simp] theorem abortRun_link (c : AbortCause) (s : State) : linkPart (abortRun c s) = linkPart s := by
  simp only [abortRun]
  repeat' split
  all_goals simp

@[simp] theorem startProcedureRun_core (n : Slot) (b : Bool) (s : State) :
    corePart (startProcedureRun n b s) = corePart s := by
  simp only [startProcedureRun]
  repeat' split
  all_goals simp

@[simp] theorem startProcedureRun_link (n : Slot) (b : Bool) (s : State) :
    linkPart (startProcedureRun n b s) = linkPart s := by
  simp only [startProcedureRun]
  repeat' split
  all_goals simp

@[simp] theorem reportSuspension_core (s : State) : corePart (reportSuspension s) = corePart s := by
  simp only [reportSuspension]
  repeat' split
  all_goals simp

@[simp] theorem reportSuspension_link (s : State) : linkPart (reportSuspension s) = linkPart s := by
  simp only [reportSuspension]
  repeat' split
  all_goals simp

@[simp] theorem suspendRun_core (p : RememberedPhase) (s : State) : corePart (suspendRun p s) = corePart s := by
  simp only [suspendRun]
  repeat' split
  all_goals simp

@[simp] theorem suspendRun_link (p : RememberedPhase) (s : State) : linkPart (suspendRun p s) = linkPart s := by
  simp only [suspendRun]
  repeat' split
  all_goals simp

@[simp] theorem suspendTest_core (b : Bool) (s : State) : corePart (suspendTest b s) = corePart s := by
  simp only [suspendTest]
  repeat' split
  all_goals simp

@[simp] theorem suspendTest_link (b : Bool) (s : State) : linkPart (suspendTest b s) = linkPart s := by
  simp only [suspendTest]
  repeat' split
  all_goals simp

@[simp] theorem autoRequest_core (s : State) : corePart (autoRequest s) = corePart s := by
  simp only [autoRequest]
  repeat' split
  all_goals simp

@[simp] theorem autoRequest_link (s : State) : linkPart (autoRequest s) = linkPart s := by
  simp only [autoRequest]
  repeat' split
  all_goals simp

@[simp] theorem prepareEnds_core (s : State) : corePart (prepareEnds s) = corePart s := by
  simp only [prepareEnds]
  repeat' split
  all_goals simp

@[simp] theorem prepareEnds_link (s : State) : linkPart (prepareEnds s) = linkPart s := by
  simp only [prepareEnds]
  repeat' split
  all_goals simp

@[simp] theorem quiesceRun_core (s : State) : corePart (quiesceRun s) = corePart s := by
  simp only [quiesceRun]
  repeat' split
  all_goals simp

@[simp] theorem quiesceRun_link (s : State) : linkPart (quiesceRun s) = linkPart s := by
  simp only [quiesceRun]
  repeat' split
  all_goals simp

@[simp] theorem joinWait_core (z : Zone) (r : Reason) (i : Slot) (s : State) :
    corePart (joinWait z r i s) = corePart s :=
  by simp [joinWait]

@[simp] theorem joinWait_link (z : Zone) (r : Reason) (i : Slot) (s : State) :
    linkPart (joinWait z r i s) = linkPart s :=
  by simp [joinWait]

@[simp] theorem placeEntry_core (z : Zone) (i : Slot) (s : State) : corePart (placeEntry z i s) = corePart s :=
  by simp [placeEntry]

@[simp] theorem placeEntry_link (z : Zone) (i : Slot) (s : State) : linkPart (placeEntry z i s) = linkPart s :=
  by simp [placeEntry]

@[simp] theorem fillZone_core (z : Zone) (n : Nat) (s : State) : corePart (fillZone z n s) = corePart s := by
  induction n generalizing s with
  | zero => rfl
  | succ n ih =>
    simp only [fillZone]
    repeat' split
    all_goals first | rfl | simp [ih]

@[simp] theorem fillZone_link (z : Zone) (n : Nat) (s : State) : linkPart (fillZone z n s) = linkPart s := by
  induction n generalizing s with
  | zero => rfl
  | succ n ih =>
    simp only [fillZone]
    repeat' split
    all_goals first | rfl | simp [ih]

@[simp] theorem refill_core (s : State) : corePart (refill s) = corePart s := by
  simp only [refill]
  split
  · exact foldl_keeps corePart _ (fun t z => fillZone_core z _ t) _ _
  · rfl

@[simp] theorem refill_link (s : State) : linkPart (refill s) = linkPart s := by
  simp only [refill]
  split
  · exact foldl_keeps linkPart _ (fun t z => fillZone_link z _ t) _ _
  · rfl

@[simp] theorem takeNewcomer_core (z : Zone) (i : Slot) (s : State) : corePart (takeNewcomer z s i) = corePart s := by
  simp only [takeNewcomer]
  repeat' split
  all_goals simp

@[simp] theorem takeNewcomer_link (z : Zone) (i : Slot) (s : State) : linkPart (takeNewcomer z s i) = linkPart s := by
  simp only [takeNewcomer]
  repeat' split
  all_goals simp

@[simp] theorem placeZone_core (l : List Slot) (z : Zone) (s : State) : corePart (placeZone l s z) = corePart s := by
  simp only [placeZone]
  exact (foldl_keeps corePart _ (fun t i => takeNewcomer_core z i t) _ _).trans (fillZone_core z _ s)

@[simp] theorem placeZone_link (l : List Slot) (z : Zone) (s : State) : linkPart (placeZone l s z) = linkPart s := by
  simp only [placeZone]
  exact (foldl_keeps linkPart _ (fun t i => takeNewcomer_link z i t) _ _).trans (fillZone_link z _ s)

@[simp] theorem endSlot_core (o : Outcome) (i : Slot) (s : State) : corePart (endSlot o i s) = corePart s := by
  simp only [endSlot]
  all_goals simp

@[simp] theorem endSlot_link (o : Outcome) (i : Slot) (s : State) : linkPart (endSlot o i s) = linkPart s := by
  simp only [endSlot]
  all_goals simp

@[simp] theorem runEnd_core (o : RunOutcome) (i : Slot) (s : State) : corePart (runEnd o i s) = corePart s :=
  by simp [runEnd]

@[simp] theorem runEnd_link (o : RunOutcome) (i : Slot) (s : State) : linkPart (runEnd o i s) = linkPart s :=
  by simp [runEnd]

@[simp] theorem endDirective_core (o : Outcome) (i : Slot) (s : State) :
    corePart (endDirective o i s) = corePart s := by
  simp only [endDirective]
  repeat' split
  all_goals simp

@[simp] theorem endDirective_link (o : Outcome) (i : Slot) (s : State) :
    linkPart (endDirective o i s) = linkPart s := by
  simp only [endDirective]
  repeat' split
  all_goals simp

@[simp] theorem takeEnd_core (m : Bool) (i : Slot) (s : State) : corePart (takeEnd m s i) = corePart s := by
  simp only [takeEnd]
  repeat' split
  all_goals simp

@[simp] theorem takeEnd_link (m : Bool) (i : Slot) (s : State) : linkPart (takeEnd m s i) = linkPart s := by
  simp only [takeEnd]
  repeat' split
  all_goals simp

@[simp] theorem metEvaluation_core (i : Slot) (s : State) : corePart (metEvaluation s i) = corePart s := by
  simp only [metEvaluation]
  repeat' split
  all_goals simp

@[simp] theorem metEvaluation_link (i : Slot) (s : State) : linkPart (metEvaluation s i) = linkPart s := by
  simp only [metEvaluation]
  repeat' split
  all_goals simp

@[simp] theorem growCounts_core (s : State) : corePart (growCounts s) = corePart s := by
  simp only [growCounts]
  exact foldl_keeps corePart _ (fun t i => setSlot_core i _ t) _ _

@[simp] theorem growCounts_link (s : State) : linkPart (growCounts s) = linkPart s := by
  simp only [growCounts]
  exact foldl_keeps linkPart _ (fun t i => setSlot_link i _ t) _ _

@[simp] theorem wakeAssert_core (w : Working) (s : State) : corePart (wakeAssert w s) = corePart s := by
  simp only [wakeAssert]
  repeat' split
  all_goals rfl

@[simp] theorem wakeAssert_link (w : Working) (s : State) : linkPart (wakeAssert w s) = linkPart s := by
  simp only [wakeAssert]
  repeat' split
  all_goals rfl

@[simp] theorem handToDefrost_core (w : Working) (i : Slot) (s : State) :
    corePart (handToDefrost w i s) = corePart s := by
  simp only [handToDefrost]
  repeat' split
  all_goals simp

@[simp] theorem handToDefrost_link (w : Working) (i : Slot) (s : State) :
    linkPart (handToDefrost w i s) = linkPart s := by
  simp only [handToDefrost]
  repeat' split
  all_goals simp

@[simp] theorem becomeDue_core (w : Working) (i : Slot) (s : State) : corePart ((becomeDue w i s).1) = corePart s := by
  simp only [becomeDue]
  repeat' split
  all_goals simp

@[simp] theorem becomeDue_link (w : Working) (i : Slot) (s : State) : linkPart ((becomeDue w i s).1) = linkPart s := by
  simp only [becomeDue]
  repeat' split
  all_goals simp

@[simp] theorem setResult_core (r : SlotResult) (i : Slot) (s : State) : corePart (setResult r i s) = corePart s :=
  by simp [setResult]

@[simp] theorem setResult_link (r : SlotResult) (i : Slot) (s : State) : linkPart (setResult r i s) = linkPart s :=
  by simp [setResult]

theorem takeStart_core (m : Bool) (acc : State × List Slot) (i : Slot) :
    corePart (takeStart m acc i).1 = corePart acc.1 := by
  simp only [takeStart]
  repeat' split
  all_goals first | rfl | simp

@[simp] theorem evaluate_core (m : Bool) (l : List Slot) (s : State) : corePart (evaluate m l s) = corePart s := by
  have h1 : corePart (l.foldl metEvaluation s) = corePart s := foldl_keeps corePart _ (fun t i => metEvaluation_core i t) _ _
  have h2 : ∀ t, corePart (l.foldl (takeEnd m) t) = corePart t := fun t =>
    foldl_keeps corePart _ (fun t i => takeEnd_core m i t) _ _
  have h3 : ∀ a : State × List Slot, corePart (l.foldl (takeStart m) a).1 = corePart a.1 := fun a =>
    foldl_keeps (fun a : State × List Slot => corePart a.1) _ (fun a i => takeStart_core m a i) _ _
  simp only [evaluate]
  split
  · exact (foldl_keeps corePart _ (fun t z => placeZone_core _ z t) _ _).trans ((h3 _).trans ((h2 _).trans h1))
  · exact (h3 _).trans ((h2 _).trans h1)

theorem takeStart_link (m : Bool) (acc : State × List Slot) (i : Slot) :
    linkPart (takeStart m acc i).1 = linkPart acc.1 := by
  simp only [takeStart]
  repeat' split
  all_goals first | rfl | simp

@[simp] theorem evaluate_link (m : Bool) (l : List Slot) (s : State) : linkPart (evaluate m l s) = linkPart s := by
  have h1 : linkPart (l.foldl metEvaluation s) = linkPart s := foldl_keeps linkPart _ (fun t i => metEvaluation_link i t) _ _
  have h2 : ∀ t, linkPart (l.foldl (takeEnd m) t) = linkPart t := fun t =>
    foldl_keeps linkPart _ (fun t i => takeEnd_link m i t) _ _
  have h3 : ∀ a : State × List Slot, linkPart (l.foldl (takeStart m) a).1 = linkPart a.1 := fun a =>
    foldl_keeps (fun a : State × List Slot => linkPart a.1) _ (fun a i => takeStart_link m a i) _ _
  simp only [evaluate]
  split
  · exact (foldl_keeps linkPart _ (fun t z => placeZone_link _ z t) _ _).trans ((h3 _).trans ((h2 _).trans h1))
  · exact (h3 _).trans ((h2 _).trans h1)

@[simp] theorem scheduleEvaluation_core (m : Bool) (s : State) : corePart (scheduleEvaluation m s) = corePart s := by
  cases m
  · exact evaluate_core false _ s
  · exact (evaluate_core true _ _).trans (growCounts_core s)

@[simp] theorem scheduleEvaluation_link (m : Bool) (s : State) : linkPart (scheduleEvaluation m s) = linkPart s := by
  cases m
  · exact evaluate_link false _ s
  · exact (evaluate_link true _ _).trans (growCounts_link s)

@[simp] theorem parkDirectives_core (s : State) : corePart (parkDirectives s) = corePart s := by
  simp only [parkDirectives]
  refine (foldl_keeps corePart _ (fun t i => ?_) _ _).trans
    (foldl_keeps corePart _ (fun t z => foldl_keeps corePart _ (fun _ _ => joinWait_core _ _ _ _) _ _) _ _)
  split <;> rfl

@[simp] theorem parkDirectives_link (s : State) : linkPart (parkDirectives s) = linkPart s := by
  simp only [parkDirectives]
  refine (foldl_keeps linkPart _ (fun t i => ?_) _ _).trans
    (foldl_keeps linkPart _ (fun t z => foldl_keeps linkPart _ (fun _ _ => joinWait_link _ _ _ _) _ _) _ _)
  split <;> rfl

@[simp] theorem placeParked_core (s : State) : corePart (placeParked s) = corePart s := by
  simp only [placeParked]
  refine (foldl_keeps corePart _ (fun t i => ?_) _ _).trans
    (foldl_keeps corePart _ (fun t z => fillZone_core z _ t) _ _)
  split <;> rfl

@[simp] theorem placeParked_link (s : State) : linkPart (placeParked s) = linkPart s := by
  simp only [placeParked]
  refine (foldl_keeps linkPart _ (fun t i => ?_) _ _).trans
    (foldl_keeps linkPart _ (fun t z => fillZone_link z _ t) _ _)
  split <;> rfl

@[simp] theorem quiesceDirectives_core (s : State) : corePart (quiesceDirectives s) = corePart s := by
  refine foldl_keeps corePart _ (fun t i => ?_) _ _
  split <;> simp

@[simp] theorem quiesceDirectives_link (s : State) : linkPart (quiesceDirectives s) = linkPart s := by
  refine foldl_keeps linkPart _ (fun t i => ?_) _ _
  split <;> simp

@[simp] theorem endUnwoken_core (s : State) : corePart (endUnwoken s) = corePart s := by
  refine foldl_keeps corePart _ (fun t i => ?_) _ _
  split <;> simp

@[simp] theorem endUnwoken_link (s : State) : linkPart (endUnwoken s) = linkPart s := by
  refine foldl_keeps linkPart _ (fun t i => ?_) _ _
  split <;> simp

@[simp] theorem settleSlot_core (u : Zones (Option Int)) (i : Slot) (s : State) :
    corePart (settleSlot u s i) = corePart s := by
  simp only [settleSlot]
  repeat' split
  all_goals simp

@[simp] theorem settleSlot_link (u : Zones (Option Int)) (i : Slot) (s : State) :
    linkPart (settleSlot u s i) = linkPart s := by
  simp only [settleSlot]
  repeat' split
  all_goals simp

@[simp] theorem settledEvaluation_core (u : Zones (Option Int)) (s : State) :
    corePart (settledEvaluation u s) = corePart s := by
  simp only [settledEvaluation, refill_core]
  exact foldl_keeps corePart _ (fun t i => settleSlot_core u i t) _ _

@[simp] theorem settledEvaluation_link (u : Zones (Option Int)) (s : State) :
    linkPart (settledEvaluation u s) = linkPart s := by
  simp only [settledEvaluation, refill_link]
  exact foldl_keeps linkPart _ (fun t i => settleSlot_link u i t) _ _

@[simp] theorem reportRunEnd_core (n : Slot) (o : Outcome) (s : State) :
    corePart (reportRunEnd n o s) = corePart s :=
  endDirective_core _ _ s

@[simp] theorem reportRunEnd_link (n : Slot) (o : Outcome) (s : State) :
    linkPart (reportRunEnd n o s) = linkPart s :=
  endDirective_link _ _ s

@[simp] theorem restoreEnds_core (s : State) : corePart (restoreEnds s) = corePart s := by
  simp only [restoreEnds]
  repeat' split
  all_goals first | rfl | (simp; done) | (simp; rfl)

@[simp] theorem restoreEnds_link (s : State) : linkPart (restoreEnds s) = linkPart s := by
  simp only [restoreEnds]
  repeat' split
  all_goals first | rfl | (simp; done) | (simp; rfl)

@[simp] theorem takePost_core (i : Slot) (s : State) : corePart (takePost i s) = corePart s := by
  simp only [takePost]
  repeat' split
  all_goals simp

@[simp] theorem takePost_link (i : Slot) (s : State) : linkPart (takePost i s) = linkPart s := by
  simp only [takePost]
  repeat' split
  all_goals simp

@[simp] theorem takeAmend_core (i : Slot) (s : State) : corePart (takeAmend i s) = corePart s := by
  simp only [takeAmend]
  repeat' split
  all_goals simp

@[simp] theorem takeAmend_link (i : Slot) (s : State) : linkPart (takeAmend i s) = linkPart s := by
  simp only [takeAmend]
  repeat' split
  all_goals simp

@[simp] theorem takeRetract_core (i : Slot) (s : State) : corePart (takeRetract i s) = corePart s := by
  simp only [takeRetract]
  repeat' split
  all_goals simp

@[simp] theorem takeRetract_link (i : Slot) (s : State) : linkPart (takeRetract i s) = linkPart s := by
  simp only [takeRetract]
  repeat' split
  all_goals simp

@[simp] theorem takeRelease_core (i : Slot) (s : State) : corePart (takeRelease i s) = corePart s := by
  simp only [takeRelease]
  all_goals simp

@[simp] theorem takeRelease_link (i : Slot) (s : State) : linkPart (takeRelease i s) = linkPart s := by
  simp only [takeRelease]
  all_goals simp

@[simp] theorem protectionEvaluation_core (s : State) : corePart (protectionEvaluation s) = corePart s := by
  simp only [protectionEvaluation]
  repeat' split
  all_goals simp

@[simp] theorem protectionEvaluation_link (s : State) : linkPart (protectionEvaluation s) = linkPart s := by
  simp only [protectionEvaluation]
  repeat' split
  all_goals simp

@[simp] theorem formZoneStates_core (s : State) : corePart (formZoneStates s) = corePart s := by simp [formZoneStates]

@[simp] theorem formZoneStates_link (s : State) : linkPart (formZoneStates s) = linkPart s := by simp [formZoneStates]

@[simp] theorem lockZones_core (m : Nat) (s : State) : corePart (lockZones m s) = corePart s := by simp [lockZones]

@[simp] theorem lockZones_link (m : Nat) (s : State) : linkPart (lockZones m s) = linkPart s := by simp [lockZones]

@[simp] theorem putLimits_core (c : Cfg) (s : State) : corePart (putLimits c s) = corePart s := by simp [putLimits]

@[simp] theorem putLimits_link (c : Cfg) (s : State) : linkPart (putLimits c s) = linkPart s := by simp [putLimits]

@[simp] theorem resetProtection_core (s : State) : corePart (resetProtection s) = corePart s :=
  by simp [resetProtection]

@[simp] theorem resetProtection_link (s : State) : linkPart (resetProtection s) = linkPart s :=
  by simp [resetProtection]

@[simp] theorem markFirstPass_core (b : Bool) (s : State) : corePart (markFirstPass b s) = corePart s :=
  by simp [markFirstPass]

@[simp] theorem markFirstPass_link (b : Bool) (s : State) : linkPart (markFirstPass b s) = linkPart s :=
  by simp [markFirstPass]

@[simp] theorem startPass_core (s : State) : corePart (startPass s) = corePart s := by
  simp only [startPass]
  repeat' split
  all_goals rfl

@[simp] theorem takeResults_core (r : PassResult) (s : State) : corePart (takeResults r s) = corePart s :=
  by first | (simp [takeResults]; done) | rfl

@[simp] theorem takeResults_link (r : PassResult) (s : State) : linkPart (takeResults r s) = linkPart s :=
  by first | (simp [takeResults]; done) | rfl

@[simp] theorem quietBalance_core (s : State) : corePart (quietBalance s) = corePart s :=
  by first | (simp [quietBalance]; done) | rfl

@[simp] theorem countOverrun_core (s : State) : corePart (countOverrun s) = corePart s :=
  by first | (simp [countOverrun]; done) | rfl

@[simp] theorem countOverrun_link (s : State) : linkPart (countOverrun s) = linkPart s :=
  by first | (simp [countOverrun]; done) | rfl

@[simp] theorem recomputePaths_core (s : State) : corePart (recomputePaths s) = corePart s := by simp [recomputePaths]

@[simp] theorem recomputePaths_link (s : State) : linkPart (recomputePaths s) = linkPart s := by simp [recomputePaths]

@[simp] theorem onEnabledActs_core (f : ActCfg → ActRec → ActRec) (s : State) :
    corePart (onEnabledActs f s) = corePart s := by
  simp only [onEnabledActs]
  repeat' split
  all_goals simp

@[simp] theorem onEnabledActs_link (f : ActCfg → ActRec → ActRec) (s : State) :
    linkPart (onEnabledActs f s) = linkPart s := by
  simp only [onEnabledActs]
  repeat' split
  all_goals simp

@[simp] theorem computeCommands_core (r : PassResult) (s : State) : corePart (computeCommands r s) = corePart s := by
  simp only [computeCommands]
  repeat' split
  all_goals simp

@[simp] theorem computeCommands_link (r : PassResult) (s : State) : linkPart (computeCommands r s) = linkPart s := by
  simp only [computeCommands]
  repeat' split
  all_goals simp

@[simp] theorem stepCommandsToRest_core (s : State) : corePart (stepCommandsToRest s) = corePart s :=
  onEnabledActs_core _ s

@[simp] theorem stepCommandsToRest_link (s : State) : linkPart (stepCommandsToRest s) = linkPart s :=
  onEnabledActs_link _ s

@[simp] theorem setCommandsToRest_core (s : State) : corePart (setCommandsToRest s) = corePart s :=
  onEnabledActs_core _ s

@[simp] theorem setCommandsToRest_link (s : State) : linkPart (setCommandsToRest s) = linkPart s :=
  onEnabledActs_link _ s

@[simp] theorem aimAtRest_core (s : State) : corePart (aimAtRest s) = corePart s := by simp [aimAtRest]

@[simp] theorem aimAtRest_link (s : State) : linkPart (aimAtRest s) = linkPart s := by simp [aimAtRest]

@[simp] theorem takeDrive_core (a : Nat) (r : Option (List Nat × Nat)) (n : NodeState) (s : State) :
    corePart (takeDrive a r n s) = corePart s := by
  simp only [takeDrive]
  repeat' split
  all_goals simp

@[simp] theorem takeDrive_link (a : Nat) (r : Option (List Nat × Nat)) (n : NodeState) (s : State) :
    linkPart (takeDrive a r n s) = linkPart s := by
  simp only [takeDrive]
  repeat' split
  all_goals simp

@[simp] theorem clearLatches_core (s : State) : corePart (clearLatches s) = corePart s := by simp [clearLatches]

@[simp] theorem clearLatches_link (s : State) : linkPart (clearLatches s) = linkPart s := by simp [clearLatches]

@[simp] theorem handUnknownToActs_core (s : State) : corePart (handUnknownToActs s) = corePart s :=
  by simp [handUnknownToActs]

@[simp] theorem handUnknownToActs_link (s : State) : linkPart (handUnknownToActs s) = linkPart s :=
  by simp [handUnknownToActs]

@[simp] theorem configureActs_core (c : Cfg) (s : State) : corePart (configureActs c s) = corePart s :=
  by simp [configureActs]

@[simp] theorem configureActs_link (c : Cfg) (s : State) : linkPart (configureActs c s) = linkPart s :=
  by simp [configureActs]

@[simp] theorem clearCarried_core (s : State) : corePart (clearCarried s) = corePart s := by simp [clearCarried]

@[simp] theorem clearCarried_link (s : State) : linkPart (clearCarried s) = linkPart s := by simp [clearCarried]

@[simp] theorem recordCarried_core (x : Exchange) (s : State) : corePart (recordCarried s x) = corePart s := by
  simp only [recordCarried]
  repeat' split
  all_goals simp

@[simp] theorem recordCarried_link (x : Exchange) (s : State) : linkPart (recordCarried s x) = linkPart s := by
  simp only [recordCarried]
  repeat' split
  all_goals simp

@[simp] theorem setWork_core (w : LinkWork) (s : State) : corePart (setWork w s) = corePart s := by simp [setWork]

@[simp] theorem setAfter_core (a : AfterWork) (s : State) : corePart (setAfter a s) = corePart s := by simp [setAfter]

@[simp] theorem requestStarts_core (s : State) : corePart (requestStarts s) = corePart s := by
  simp only [requestStarts]
  repeat' split
  all_goals simp

@[simp] theorem requestEnds_core (s : State) : corePart (requestEnds s) = corePart s := by
  simp only [requestEnds]
  repeat' split
  all_goals simp

@[simp] theorem startBitBegins_core (s : State) : corePart (startBitBegins s) = corePart s := by
  simp only [startBitBegins]
  repeat' split
  all_goals simp

@[simp] theorem updateNode_core (x : Exchange) (r : ExchangeResult) (s : State) :
    corePart (updateNode x r s) = corePart s := by
  simp only [updateNode]
  repeat' split
  all_goals simp

@[simp] theorem afterChannelEvent_core (s : State) : corePart (afterChannelEvent s) = corePart s := by
  simp only [afterChannelEvent]
  all_goals simp

@[simp] theorem afterChannelEvent_link (s : State) : linkPart (afterChannelEvent s) = linkPart s := by
  simp only [afterChannelEvent]
  all_goals simp

@[simp] theorem handResults_core (x : Exchange) (r : ExchangeResult) (s : State) :
    corePart (handResults x r s) = corePart s := by
  simp only [handResults]
  repeat' split
  all_goals simp

@[simp] theorem handResults_link (x : Exchange) (r : ExchangeResult) (s : State) :
    linkPart (handResults x r s) = linkPart s := by
  simp only [handResults]
  repeat' split
  all_goals simp

@[simp] theorem resetNodes_core (s : State) : corePart (resetNodes s) = corePart s := by simp [resetNodes]

@[simp] theorem resetNodesHanded_core (s : State) : corePart (resetNodesHanded s) = corePart s := by
  simp only [resetNodesHanded]
  all_goals simp

@[simp] theorem startPublication_core (s : State) : corePart (startPublication s) = corePart s := rfl

@[simp] theorem startPublication_link (s : State) : linkPart (startPublication s) = linkPart s := rfl

@[simp] theorem completePublication_core (s : State) : corePart (completePublication s) = corePart s := by
  simp only [completePublication]
  repeat' split
  all_goals first | (simp; done) | rfl

@[simp] theorem completePublication_link (s : State) : linkPart (completePublication s) = linkPart s := by
  simp only [completePublication]
  repeat' split
  all_goals first | (simp; done) | rfl

@[simp] theorem countTowardReport_core (s : State) : corePart (countTowardReport s) = corePart s := by
  simp only [countTowardReport]
  repeat' split
  all_goals rfl

@[simp] theorem countTowardReport_link (s : State) : linkPart (countTowardReport s) = linkPart s := by
  simp only [countTowardReport]
  repeat' split
  all_goals rfl

@[simp] theorem publishFirst_core (s : State) : corePart (publishFirst s) = corePart s := rfl

@[simp] theorem publishFirst_link (s : State) : linkPart (publishFirst s) = linkPart s := rfl

@[simp] theorem setTimer_core (t : Option Nat) (s : State) : corePart (setTimer t s) = corePart s :=
  by first | (simp [setTimer]; done) | rfl

@[simp] theorem freshRound_core (s : State) : corePart (freshRound s) = corePart s := by simp [freshRound]

@[simp] theorem dueAtCursor_core (s : State) : corePart (dueAtCursor s) = corePart s := by simp [dueAtCursor]

@[simp] theorem beginBreak_core (s : State) : corePart (beginBreak s) = corePart s := by simp [beginBreak]

@[simp] theorem beginRecovery_core (s : State) : corePart (beginRecovery s) = corePart s := by simp [beginRecovery]

@[simp] theorem afterRound_core (b : Bool) (s : State) : corePart (afterRound b s) = corePart s := by
  simp only [afterRound]
  repeat' split
  all_goals simp

@[simp] theorem recoveryTest_core (b : Bool) (s : State) : corePart (recoveryTest b s) = corePart s := by
  simp only [recoveryTest]
  repeat' split
  all_goals simp

@[simp] theorem replyFails_core (k : MissKind) (n : Nat) (s : State) : corePart (replyFails k n s) = corePart s :=
  by simp [replyFails]

@[simp] theorem gapTooLong_core (s : State) : corePart (gapTooLong s) = corePart s := by
  simp only [gapTooLong]
  repeat' split
  all_goals simp

@[simp] theorem breakEnds_core (s : State) : corePart (breakEnds s) = corePart s := by
  simp only [breakEnds]
  repeat' split
  all_goals simp

@[simp] theorem requestBreak_core (s : State) : corePart (requestBreak s) = corePart s := by
  simp only [requestBreak]
  repeat' split
  all_goals simp

@[simp] theorem linkAtParking_core (s : State) : corePart (linkAtParking s) = corePart s := by
  simp only [linkAtParking]
  repeat' split
  all_goals simp

@[simp] theorem agePeriod_core (s : State) : corePart (agePeriod s) = corePart s := by
  simp only [agePeriod]
  all_goals simp

@[simp] theorem agePeriod_link (s : State) : linkPart (agePeriod s) = linkPart s := by
  simp only [agePeriod]
  all_goals simp

@[simp] theorem cutSweep_core (s : State) : corePart (cutSweep s) = corePart s := by
  simp only [cutSweep]
  repeat' split
  all_goals simp

@[simp] theorem activePeriod_core (s : State) : corePart (activePeriod s) = corePart s := by
  simp only [activePeriod]
  all_goals simp

@[simp] theorem defrostAtPass_core (r : PassResult) (s : State) : corePart (defrostAtPass r s) = corePart s := by
  simp only [defrostAtPass]
  repeat' split
  all_goals simp

@[simp] theorem defrostAtPass_link (r : PassResult) (s : State) : linkPart (defrostAtPass r s) = linkPart s := by
  simp only [defrostAtPass]
  repeat' split
  all_goals simp

@[simp] theorem capFrost_core (c : Cfg) (s : State) : corePart (capFrost c s) = corePart s :=
  by first | (simp [capFrost]; done) | rfl

@[simp] theorem capFrost_link (c : Cfg) (s : State) : linkPart (capFrost c s) = linkPart s :=
  by first | (simp [capFrost]; done) | rfl

@[simp] theorem prepareExpires_core (s : State) : corePart (prepareExpires s) = corePart s := by
  simp only [prepareExpires]
  repeat' split
  all_goals simp

@[simp] theorem prepareExpires_link (s : State) : linkPart (prepareExpires s) = linkPart s := by
  simp only [prepareExpires]
  repeat' split
  all_goals simp

@[simp] theorem meltExpires_core (s : State) : corePart (meltExpires s) = corePart s := by
  simp only [meltExpires]
  repeat' split
  all_goals simp

@[simp] theorem meltExpires_link (s : State) : linkPart (meltExpires s) = linkPart s := by
  simp only [meltExpires]
  repeat' split
  all_goals simp

@[simp] theorem dripExpires_core (s : State) : corePart (dripExpires s) = corePart s := by
  simp only [dripExpires]
  repeat' split
  all_goals simp

@[simp] theorem dripExpires_link (s : State) : linkPart (dripExpires s) = linkPart s := by
  simp only [dripExpires]
  repeat' split
  all_goals simp

@[simp] theorem restoreExpires_core (s : State) : corePart (restoreExpires s) = corePart s := by
  simp only [restoreExpires]
  repeat' split
  all_goals simp

@[simp] theorem restoreExpires_link (s : State) : linkPart (restoreExpires s) = linkPart s := by
  simp only [restoreExpires]
  repeat' split
  all_goals simp

@[simp] theorem suspendExpires_core (s : State) : corePart (suspendExpires s) = corePart s := by
  simp only [suspendExpires]
  repeat' split
  all_goals simp

@[simp] theorem suspendExpires_link (s : State) : linkPart (suspendExpires s) = linkPart s := by
  simp only [suspendExpires]
  repeat' split
  all_goals simp

@[simp] theorem grantExpires_core (s : State) : corePart (grantExpires s) = corePart s := by
  simp only [grantExpires]
  repeat' split
  all_goals simp

@[simp] theorem grantExpires_link (s : State) : linkPart (grantExpires s) = linkPart s := by
  simp only [grantExpires]
  repeat' split
  all_goals simp

@[simp] theorem lineAccepted_core (l : Line) (b : Bool) (s : State) : corePart (lineAccepted l b s) = corePart s := by
  refine (scheduleEvaluation_core false _).trans ?_
  split <;> simp

@[simp] theorem lineAccepted_link (l : Line) (b : Bool) (s : State) : linkPart (lineAccepted l b s) = linkPart s := by
  refine (scheduleEvaluation_link false _).trans ?_
  split <;> simp

@[simp] theorem sampleLine_core (l : Line) (b : Bool) (s : State) : corePart (sampleLine l b s) = corePart s := by
  simp only [sampleLine]
  repeat' split
  · rfl
  · exact (lineAccepted_core l b _).trans rfl
  · rfl

@[simp] theorem sampleLine_link (l : Line) (b : Bool) (s : State) : linkPart (sampleLine l b s) = linkPart s := by
  simp only [sampleLine]
  repeat' split
  · rfl
  · exact (lineAccepted_link l b _).trans rfl
  · rfl

theorem slotGate_core (k : SlotState → Bool) (i : Slot) (f : State → State) (h : ∀ t, corePart (f t) = corePart t) (s : State) :
    corePart (slotGate k i f s) = corePart s := by
  simp only [slotGate]
  repeat' split
  all_goals first | rfl | exact h s

theorem slotGate_link (k : SlotState → Bool) (i : Slot) (f : State → State) (h : ∀ t, linkPart (f t) = linkPart t) (s : State) :
    linkPart (slotGate k i f s) = linkPart s := by
  simp only [slotGate]
  repeat' split
  all_goals first | rfl | exact h s

@[simp] theorem slotAction_core (i : Slot) (v : Word) (s : State) : corePart (slotAction i v s) = corePart s := by
  simp only [slotAction]
  repeat' split
  all_goals first | rfl | exact slotGate_core _ _ _ (takePost_core i) _ | exact slotGate_core _ _ _ (takeAmend_core i) _ | exact slotGate_core _ _ _ (takeRetract_core i) _ | exact slotGate_core _ _ _ (takeRelease_core i) _

@[simp] theorem slotAction_link (i : Slot) (v : Word) (s : State) : linkPart (slotAction i v s) = linkPart s := by
  simp only [slotAction]
  repeat' split
  all_goals first | rfl | exact slotGate_link _ _ _ (takePost_link i) _ | exact slotGate_link _ _ _ (takeAmend_link i) _ | exact slotGate_link _ _ _ (takeRetract_link i) _ | exact slotGate_link _ _ _ (takeRelease_link i) _

end Sys2Proof.Machine
end

