-- ==== Sys2Proof/Laws/Link.lean ====
section
/-! SUPPORT. What the events of the line and of the counted timers come to, said once: an event that ends an exchange
completes it with its result, and an expiry that is not due is nothing. -/

namespace Sys2Proof.Machine

/-- A whole reply without a fault, at its check character (R92, R96). -/
theorem judgeCharacter_good (x : Exchange) (address : Nat) (a len d : Byte) (payload : List Byte)
    (hl : payload.length = len.toNat)
    (hs : (len.toNat + (payload.map BitVec.toNat).sum + d.toNat) % 256 = 0) :
    judgeCharacter x address (a :: 0 :: len :: payload) d false true = .good := by
  simp [judgeCharacter, hl, hs]

/-- The command that ends the exchange in flight completes it with its result (R95 to R97, R99). -/
theorem endsExchange_exec {i : Instr} {s : State} {x : Exchange} {res : ExchangeResult}
    (hx : currentExchange s = some x) (h : endsExchange i s res) : exec i s = .next (exchangeEnds res s) := by
  rcases h with ⟨rfl, hw, rfl⟩ | ⟨hi, k, n, hw, rfl⟩ | ⟨a, len, d, payload, rfl, hw, hl, hs, rfl⟩
  · simp [exec, execReplyWindowExpiry, windowCloses, hw]
  · rcases hi with rfl | rfl <;> simp [exec, execLineIdle, execErrorBound, errorWaitEnds, hw]
  · have g := judgeCharacter_good x (entryAddress s x.entry) a len d payload hl hs
    rcases hw with hw | hw <;> simp only [exec, execReplyCharacter, replyArrives, hw, replySoFar, hx, g] <;> rfl

/-- What an exchange's completion is: its result is handed on, and the link goes on (R99 to R101). -/
theorem exchangeEnds_current {s : State} {x : Exchange} (hx : currentExchange s = some x) (res : ExchangeResult) :
    exchangeEnds res s = afterExchange (handResults x res (updateNode x res s)) := by
  simp [exchangeEnds, hx]

/-- A period expiry that is not due is nothing (R125). -/
theorem timerExpires_early {s : State} (h : periodDue s = false) : timerExpires s = s := by
  simp [timerExpires, h]

/-- A rollover short of the divider's end is nothing (R77). -/
theorem rollover_early {s : State} (h : rolloverDue s = false) : rollover s = s := by
  simp [rollover, h]

end Sys2Proof.Machine
end

