-- ==== Sys2Proof/Laws/Lists.lean ====
section
/-! SUPPORT. The Directive Unit's lists: where a slot put into a stack or a wait list stands, and what its record
becomes. -/

namespace Sys2Proof.Machine

/-! ## Putting a slot into a list -/

@[simp] theorem mem_insertBefore (p : Slot → Bool) (i j : Slot) (l : List Slot) :
    j ∈ insertBefore p i l ↔ j = i ∨ j ∈ l := by
  induction l with
  | nil => simp [insertBefore]
  | cons a l ih =>
    by_cases h : p a = true
    · simp [insertBefore, h]
    · simp [insertBefore, h, ih, or_left_comm]

/-- The slot stands after a first part of the list that it does not precede, and before the first member it precedes. -/
theorem insertBefore_splits (p : Slot → Bool) (i : Slot) (l : List Slot) :
    ∃ a b, l = a ++ b ∧ insertBefore p i l = a ++ i :: b ∧ (∀ j ∈ a, p j = false) ∧ ∀ j ∈ b.head?, p j = true := by
  induction l with
  | nil => exact ⟨[], [], rfl, rfl, by simp, by simp⟩
  | cons x l ih =>
    by_cases h : p x = true
    · exact ⟨[], x :: l, rfl, by simp [insertBefore, h], by simp, by simp [h]⟩
    · obtain ⟨a, b, rfl, hi, ha, hb⟩ := ih
      exact ⟨x :: a, b, rfl, by simp [insertBefore, h, hi], by simpa [h] using ha, hb⟩

/-- A list keeps its order when the slot precedes what the test says and follows the rest. -/
theorem insertBefore_pairwise {r : Slot → Slot → Prop} {p : Slot → Bool} {i : Slot} {l : List Slot} (hl : l.Pairwise r)
    (trans : ∀ {j k}, r i j → r j k → r i k) (before : ∀ j ∈ l, p j = true → r i j)
    (after : ∀ j ∈ l, p j = false → r j i) : (insertBefore p i l).Pairwise r := by
  induction l with
  | nil => simp [insertBefore]
  | cons a l ih =>
    obtain ⟨ha, hl⟩ := List.pairwise_cons.1 hl
    by_cases h : p a = true
    · have first := before a (by simp) h
      rw [insertBefore, if_pos h, List.pairwise_cons, List.pairwise_cons]
      refine ⟨fun k hk => ?_, ha, hl⟩
      rcases List.mem_cons.1 hk with rfl | hk
      · exact first
      · exact trans first (ha k hk)
    · have rest := ih hl (fun j hj => before j (.tail _ hj)) (fun j hj => after j (.tail _ hj))
      rw [insertBefore, if_neg h, List.pairwise_cons]
      refine ⟨fun k hk => ?_, rest⟩
      rcases (mem_insertBefore _ _ _ _).1 hk with rfl | hk
      · exact after a (by simp) (by simpa using h)
      · exact ha k hk

/-! ## Reading a list after an update -/

theorem stackOf_setStack (z y : Zone) (l : List Slot) (s : State) :
    stackOf (setStack z l s) y = if y = z then l else stackOf s y := zget_zset _ _ _ _

theorem waitOf_setWait (z y : Zone) (l : List Slot) (s : State) :
    waitOf (setWait z l s) y = if y = z then l else waitOf s y := zget_zset _ _ _ _

@[simp] theorem waitOf_setStack (z y : Zone) (l : List Slot) (s : State) : waitOf (setStack z l s) y = waitOf s y := rfl

@[simp] theorem stackOf_setWait (z y : Zone) (l : List Slot) (s : State) : stackOf (setWait z l s) y = stackOf s y := rfl

@[simp] theorem slotRec_setStack (z : Zone) (i : Slot) (l : List Slot) (s : State) :
    slotRec (setStack z l s) i = slotRec s i := rfl

@[simp] theorem slotRec_setWait (z : Zone) (i : Slot) (l : List Slot) (s : State) :
    slotRec (setWait z l s) i = slotRec s i := rfl

@[simp] theorem stackOf_mapSlot (i : Slot) (f : SlotRec → SlotRec) (s : State) (z : Zone) :
    stackOf (mapSlot i f s) z = stackOf s z := rfl

@[simp] theorem waitOf_mapSlot (i : Slot) (f : SlotRec → SlotRec) (s : State) (z : Zone) :
    waitOf (mapSlot i f s) z = waitOf s z := rfl

@[simp] theorem stackOf_leaveLists (i : Slot) (s : State) (z : Zone) :
    stackOf (leaveLists i s) z = (stackOf s z).filter (· != i) := by simp [leaveLists, stackOf, State.onDu]

@[simp] theorem waitOf_leaveLists (i : Slot) (s : State) (z : Zone) :
    waitOf (leaveLists i s) z = (waitOf s z).filter (· != i) := by simp [leaveLists, waitOf, State.onDu]

@[simp] theorem slotRec_leaveLists (i j : Slot) (s : State) : slotRec (leaveLists i s) j = slotRec s j := rfl

/-! ## The orders (R47, R59) -/

theorem waitsBefore_iff (s : State) (i j : Slot) : waitsBefore s i j = true ↔ waitsFirst s i j := by
  simp only [waitsBefore, waitsFirst]
  split
  · simp; omega
  · split <;> simp <;> omega

/-- Of two slots one waits first. -/
theorem waitsFirst_or (s : State) {i j : Slot} (h : i ≠ j) : waitsFirst s i j ∨ waitsFirst s j i := by
  have : i.val ≠ j.val := fun e => h (Fin.ext e)
  simp only [waitsFirst]; omega

theorem waitsFirst_trans (s : State) {i j k : Slot} (h : waitsFirst s i j) (g : waitsFirst s j k) : waitsFirst s i k := by
  simp only [waitsFirst] at h g ⊢; omega

theorem slotRank_eq (s : State) (i : Slot) :
    slotRank s i = (((slotRec s i).work.map Working.cls).map classRank).getD 3 := by
  unfold slotRank
  cases (slotRec s i).work <;> rfl

/-- A change of a slot's record that keeps its class leaves every slot's rank. -/
theorem slotRank_mapSlot (s : State) (i j : Slot) (f : SlotRec → SlotRec)
    (h : (f (slotRec s i)).work.map Working.cls = (slotRec s i).work.map Working.cls) :
    slotRank (mapSlot i f s) j = slotRank s j := by
  simp only [slotRank_eq, slotRec_mapSlot]
  split
  · rename_i e; subst e; rw [h]
  · rfl

/-! ## Placing and waiting (R45 to R47) -/

/-- The record of every slot after one is placed. -/
theorem slotRec_placeEntry (z : Zone) (i j : Slot) (s : State) :
    slotRec (placeEntry z i s) j = if j = i then placedRecord (slotRec s i) else slotRec s j := by
  simp [placeEntry, slotRec_mapSlot, placedRecord, mapWork]

/-- A placed slot leaves every list and stands in its zone's stack, above every entry that is not of a higher class. -/
theorem stackOf_placeEntry (z y : Zone) (i : Slot) (s : State) :
    stackOf (placeEntry z i s) y =
      if y = z then insertBefore (fun j => decide (slotRank s i ≤ slotRank s j)) i ((stackOf s z).filter (· != i))
      else (stackOf s y).filter (· != i) := by
  have rank : ∀ j, slotRank (mapSlot i (fun r => mapWork (fun w => { w with settledCount := 0 })
      { r with state := .active, reason := none, placed := true }) (leaveLists i s)) j = slotRank s j := fun j => by
    rw [slotRank_mapSlot]
    · rfl
    · simp [mapWork, Option.map_map, Function.comp_def]
  simp [placeEntry, stackOf_setStack, rank]

@[simp] theorem waitOf_placeEntry (z y : Zone) (i : Slot) (s : State) :
    waitOf (placeEntry z i s) y = (waitOf s y).filter (· != i) := by simp [placeEntry]

/-- The record of every slot after one begins to wait. -/
theorem slotRec_joinWait (z : Zone) (r : Reason) (i j : Slot) (s : State) :
    slotRec (joinWait z r i s) j = if j = i then waitingRecord r (slotRec s i) else slotRec s j := by
  simp [joinWait, slotRec_mapSlot, waitingRecord, mapWork]

@[simp] theorem stackOf_joinWait (z y : Zone) (r : Reason) (i : Slot) (s : State) :
    stackOf (joinWait z r i s) y = (stackOf s y).filter (· != i) := by simp [joinWait]

/-- A slot that begins to wait leaves every list and stands in its zone's wait list in its place. -/
theorem waitOf_joinWait (z y : Zone) (r : Reason) (i : Slot) (s : State) :
    waitOf (joinWait z r i s) y =
      if y = z then insertBefore (waitsBefore s i) i ((waitOf s z).filter (· != i))
      else (waitOf s y).filter (· != i) := by
  let t := mapSlot i (fun q => mapWork (fun w => { w with settledCount := 0 })
    { q with state := .waiting, reason := some r }) (leaveLists i s)
  have rank : ∀ j, slotRank t j = slotRank s j := fun j => by
    rw [slotRank_mapSlot]
    · rfl
    · simp [mapWork, Option.map_map, Function.comp_def]
  have due : ∀ j, (slotRec t j).due = (slotRec s j).due := fun j => by
    simp only [t, slotRec_mapSlot]
    split
    · rename_i e; subst e; rfl
    · rfl
  have order : ∀ j, waitsBefore t i j = waitsBefore s i j := fun j => by simp only [waitsBefore, rank, due]
  simp only [joinWait, waitOf_setWait, waitOf_mapSlot, waitOf_leaveLists]
  split
  · exact congrArg (fun p => insertBefore p i _) (funext order)
  · rfl

end Sys2Proof.Machine
end

