-- ==== Sys2Proof/Laws/Memory.lean ====
section
/-! SUPPORT. The host-written words: read after write, and the canonical form. -/

namespace Sys2Proof.Machine

@[simp] theorem memRead_nil (a : Nat) : memRead [] a = 0 := rfl

/-- A word below every listed address reads 0. -/
theorem memRead_of_above {lo : Nat} {m : Memory} (h : memAbove lo m = true) {a : Nat} (ha : a ≤ lo) :
    memRead m a = 0 := by
  induction m with
  | nil => rfl
  | cons e m ih =>
    obtain ⟨b, w⟩ := e
    simp only [memAbove, Bool.and_eq_true, decide_eq_true_eq] at h
    have : a ≠ b := by omega
    simp [memRead, this, ih h.2]

/-- A bound below a bound holds too. -/
theorem memAbove_mono {lo lo' : Nat} {m : Memory} (h : memAbove lo m = true) (hle : lo' ≤ lo) :
    memAbove lo' m = true := by
  induction m with
  | nil => rfl
  | cons e m ih =>
    obtain ⟨b, w⟩ := e
    simp only [memAbove, Bool.and_eq_true, decide_eq_true_eq] at h ⊢
    exact ⟨by omega, ih h.2⟩

/-- A write above a bound keeps every address above it. -/
theorem memAbove_write {lo : Nat} {m : Memory} (h : memAbove lo m = true) {a : Nat} (ha : lo < a) (v : Word) :
    memAbove lo (memWrite m a v) = true := by
  induction m with
  | nil => simp only [memWrite]; split <;> simp [memAbove, ha]
  | cons e m ih =>
    obtain ⟨b, w⟩ := e
    simp only [memAbove, Bool.and_eq_true, decide_eq_true_eq] at h
    simp only [memWrite]
    split
    · split <;> simp [memAbove, h.1, h.2, ha]
    · split
      · split <;> simp [memAbove, h.2, ha]
      · simp [memAbove, h.1, ih h.2]

/-- A write keeps the canonical form. -/
theorem memWrite_wf {m : Memory} (h : Memory.wf m = true) (a : Nat) (v : Word) :
    Memory.wf (memWrite m a v) = true := by
  induction m with
  | nil =>
    simp only [memWrite]
    split
    · rfl
    · simp only [Memory.wf, memAbove, Bool.and_true, bne_iff_ne]; assumption
  | cons e m ih =>
    obtain ⟨b, w⟩ := e
    simp only [Memory.wf, Bool.and_eq_true, bne_iff_ne] at h
    obtain ⟨⟨hw, hb⟩, hm⟩ := h
    simp only [memWrite]
    split
    · rename_i hlt
      split
      · simp only [Memory.wf, Bool.and_eq_true, bne_iff_ne]; exact ⟨⟨hw, hb⟩, hm⟩
      · rename_i hv
        simp only [Memory.wf, memAbove, Bool.and_eq_true, bne_iff_ne, decide_eq_true_eq]
        exact ⟨⟨hv, hlt, memAbove_mono hb (Nat.le_of_lt hlt)⟩, ⟨hw, hb⟩, hm⟩
    · split
      · split
        · exact hm
        · rename_i hab hv
          simp only [Memory.wf, Bool.and_eq_true, bne_iff_ne]
          exact ⟨⟨hv, hab ▸ hb⟩, hm⟩
      · rename_i h1 h2
        have hba : b < a := by omega
        simp only [Memory.wf, Bool.and_eq_true, bne_iff_ne]
        exact ⟨⟨hw, memAbove_write hb hba v⟩, ih hm⟩

/-- The word written reads back (R4). -/
theorem memRead_write_self {m : Memory} (h : Memory.wf m = true) (a : Nat) (v : Word) :
    memRead (memWrite m a v) a = v := by
  induction m with
  | nil => simp only [memWrite]; split <;> simp_all [memRead]
  | cons e m ih =>
    obtain ⟨b, w⟩ := e
    simp only [Memory.wf, Bool.and_eq_true] at h
    obtain ⟨⟨hw, hb⟩, hm⟩ := h
    simp only [memWrite]
    split
    · rename_i hlt
      split
      · rename_i hv
        subst hv
        have : a ≠ b := by omega
        simp [memRead, this, memRead_of_above hb (Nat.le_of_lt hlt)]
      · simp [memRead]
    · split
      · rename_i hab
        subst hab
        split
        · rename_i hv
          subst hv
          exact memRead_of_above hb (Nat.le_refl _)
        · simp [memRead]
      · rename_i h1 h2
        simp [memRead, h2, ih hm]

/-- Every other word reads as before. -/
theorem memRead_write_other {m : Memory} {a b : Nat} (hab : b ≠ a) (v : Word) :
    memRead (memWrite m a v) b = memRead m b := by
  induction m with
  | nil => simp only [memWrite]; split <;> simp [memRead, hab]
  | cons e m ih =>
    obtain ⟨c, w⟩ := e
    simp only [memWrite]
    split
    · split <;> simp [memRead, hab]
    · split
      · rename_i h1 hac
        subst hac
        split <;> simp [memRead, hab]
      · simp [memRead, ih]

/-- A fill keeps the canonical form. -/
theorem memFill_wf {m : Memory} (h : Memory.wf m = true) (addrs : List Nat) (v : Word) :
    Memory.wf (memFill m addrs v) = true := by
  induction addrs generalizing m with
  | nil => exact h
  | cons a rest ih => exact ih (memWrite_wf h a v)

/-- A word outside a fill reads as before. -/
theorem memRead_fill_other {m : Memory} {addrs : List Nat} {b : Nat} (hb : b ∉ addrs) (v : Word) :
    memRead (memFill m addrs v) b = memRead m b := by
  induction addrs generalizing m with
  | nil => rfl
  | cons a rest ih =>
    simp only [List.mem_cons, not_or] at hb
    exact (ih hb.2).trans (memRead_write_other hb.1 v)

end Sys2Proof.Machine
end

