-- ==== Sys2Proof/Laws/Port.lean ====
section
/-! SUPPORT. What the port's shared operations do, said once: where an address lies, what an access event does that
the transaction has next and one that it does not, and the state at which an action's own effect begins. -/

namespace Sys2Proof.Machine

/-- The addresses below the directive table are the configuration area, the commit word and the two pages. -/
theorem regionOf_low (a : Addr) (h : a.toNat < 0x230) :
    regionOf a = if a.toNat < 0x200 then .config else if a.toNat = 0x21F then .commitWord else .page := by
  generalize e : a.toNat = n at h ⊢
  simp only [regionOf, e]
  split_ifs <;> first | rfl | omega

/-- The words of the directive table, slot by slot. -/
theorem regionOf_slot (a : Addr) (n : Slot) (k : Nat) (hk : k ≤ 15) (h : a.toNat = 0x300 + 16 * n.val + k) :
    regionOf a = .slot n k := by
  have hn := n.isLt
  have e1 : (a.toNat - 0x300) / 16 = n.val := by omega
  have e2 : (a.toNat - 0x300) % 16 = k := by omega
  have hs : slotRegion (a.toNat - 0x300) = .slot n k := by simp [slotRegion, e1, e2]
  simp (disch := omega) only [regionOf, if_neg, if_pos, hs]

/-- The slot summary words. -/
theorem regionOf_summary (a : Addr) (l : 0x500 ≤ a.toNat) (u : a.toNat < 0x503) :
    regionOf a = .summary (a.toNat - 0x500) := by
  simp (disch := omega) only [regionOf, if_neg, if_pos]

/-- The report area. -/
theorem regionOf_report (a : Addr) (l : 0x600 ≤ a.toNat) (u : a.toNat < 0x800) :
    regionOf a = .report (a.toNat - 0x600) := by
  simp (disch := omega) only [regionOf, if_neg, if_pos]

/-- The clock page. -/
theorem regionOf_clock (a : Addr) (l : 0x800 ≤ a.toNat) (u : a.toNat < 0x810) :
    regionOf a = .clock (a.toNat - 0x800) := by
  simp (disch := omega) only [regionOf, if_neg, if_pos]

/-- The test of an access event is what the statements call taking the word. -/
theorem wordDue_iff (d : Direction) (a : Addr) (s : State) : wordDue d a s = true ↔ portTakes d a s := by
  simp [wordDue, portTakes]

/-- An access event that the transaction has next. -/
theorem accessEvent_taken {d : Direction} {a : Addr} {s : State} (h : portTakes d a s) (out : Word)
    (act : State → State) : accessEvent d a out act s = act (accessed d a out s) := by
  simp [accessEvent, (wordDue_iff d a s).2 h, accessed, State.onPi]

/-- An access event that the transaction does not have next. -/
theorem accessEvent_ignored {d : Direction} {a : Addr} {s : State} (h : ¬ portTakes d a s) (out : Word)
    (act : State → State) : accessEvent d a out act s = s := by
  simp [accessEvent, mt (wordDue_iff d a s).1 h]

/-- The recording of an invalid access. -/
theorem recordAccess_eq (kind : AccessKind) (a : Addr) (s : State) : recordAccess kind a s = invalid kind a s := by
  simp [recordAccess, invalid, raise, State.onPi, causeMask, causeBit]

/-- The recording of an action's result. -/
theorem recordAction_eq (a : CtrlAction) (r : CtrlResult) (s : State) : recordAction a r s = answered a r s := rfl

/-- A CTRL action at a port that takes it: the BUSY test of R16, then the owner's act. -/
theorem ctrlCommand_taken {s : State} (h : ctrlTakes s) (a : CtrlAction) (p : CtrlParam)
    (take : State → State) : ctrlCommand a p take s = busyGate a take (atAction (actionCode a) p s) := by
  rw [ctrlCommand, accessEvent_taken h]
  rfl

/-- A slot action at a port that takes it. -/
theorem slotCommand_taken {s : State} {n : Slot} (h : slotTakes n s) (code : Nat) (act : State → State) :
    slotCommand n code act s = act (atSlotAction n (BitVec.ofNat 32 code) s) :=
  accessEvent_taken h 0 _

end Sys2Proof.Machine
end

