-- ==== Sys2Proof/Tests/Slice0.lean ====
section
/-! SUPPORT. The model's own tests: the well-formedness checks, the manual's worked examples, and for each
statement with hypotheses a state and operands that meet them. -/

namespace Sys2Proof.Tests

open Sys2Proof Sys2Proof.Machine

/-! ## States for the tests -/

/-- The nonzero words of a list, from an address on. -/
def wordsFrom (a : Nat) (ws : List Nat) : Memory :=
  (ws.zipIdx.map fun w => (a + w.2, BitVec.ofNat 32 w.1)).filter fun c => c.2 != 0

/-- Two 16-bit numbers in one word. -/
def pair (lo hi : Int) : Nat := (lo % 65536).toNat + (hi % 65536).toNat * 65536

/-- A zone record with channel 0 alone, aggregation MAX and its charge range 0..150. -/
def zoneWords (z : Nat) : Memory :=
  wordsFrom (0x60 + 32 * z)
    [0x03001000, pair (-400) 1500, pair 500 600, pair (-300) 10, pair 30 100, pair 0 150, pair 30 0, 5000, 20000,
      20000, 1500, 0x02580022, pair 500 12, 20]

/-- A configuration area: one MIXED node at address 1, channel 0 on it, and actuator 0 on its output 0. -/
def area : Memory :=
  wordsFrom 0 [0x1E0F0112, 0x0BB80005, 0x00300421] ++ wordsFrom 0x10 [0x105]
    ++ wordsFrom 0x30 [0x101, pair (-500) 1600] ++ (List.range 5).flatMap zoneWords
    ++ wordsFrom 0x100 [0x101, pair 0 1000, pair 0 1000, pair 100 50, pair 0xFFFF 1000]
    ++ wordsFrom 0x160
      [pair 6000 3000, 0x01191E28, pair 6000 (-200), pair 10 15000, pair (-20) 20000, 0x001F1F1F, pair 30 60,
        pair 300 30, pair 50 4000, 0x0503]

/-- The configuration it spells. -/
def cfg : Cfg := cfgOfArea area

/-- Its limits for CAB. -/
def cabLimits : Limits := (zget cfg.zones .cab).limits

/-- The state after reset with a transaction begun, in its command phase. -/
def ready : State := { State.reset with pi := { PI.reset with port := .command } }

/-- A device in a state, with that configuration committed, its limits in force and a transaction begun. -/
def device (d : DeviceState) : State :=
  { State.reset with
    xm := area
    pi := { PI.reset with port := .command, busy := moving d }
    mc := { MC.reset with state := d, config := some cfg }
    pu := { PU.reset with zones := zmk fun z => { ZoneProtect.reset with limits := some (zget cfg.zones z).limits } } }

/-- The device in ACTIVE between two sweeps, `t` milliseconds after its last pass start, LOCKED. -/
def running (t : Nat) : State :=
  { device .active with
    flc := { FLC.reset with work := .waiting }
    be := { BE.reset with timer := some t, lock := .locked }
    au := { AU.reset with acts := vset AU.reset.acts 0 { ActRec.reset with command := some 400 } } }

/-- The device with one kind of link work, in a state, its period timer at the period. -/
def linked (d : DeviceState) (w : LinkWork) (cursor : Nat) : State :=
  { device d with
    flc := { FLC.reset with work := w, cursor := cursor }
    be := { BE.reset with timer := some 1000 } }

/-- A SETPOINT for CAB. -/
def work : Working where
  kind := .setpoint
  zone := .cab
  cls := .b
  weight := 4
  combine := .replace
  alpha := none
  target := 210
  halfBand := 10
  start := .now
  ending := .none
  deadline := 0
  holdAfter := 0
  wake := true
  suspendable := false
  durationCount := 0
  settledCount := 0
  afterCount := 0
  lead := 0
  retracted := false

/-- A state with slot n in a slot state, holding a working record. -/
def withSlot (n : Slot) (st : SlotState) (w : Option Working) (s : State) : State :=
  slotChanged n { SlotRec.empty with state := st, work := w, reason := if st = .waiting then some .parked else none } s

/-- A state with the entries of CAB's stack and of its wait list. -/
def withLists (stack wait : List Slot) (s : State) : State :=
  { s with du := { s.du with stack := zset s.du.stack .cab stack, wait := zset s.du.wait .cab wait } }

/-- A state with a defrost run. -/
def withRun (r : RunState) (o : Option Origin) (s : State) : State :=
  { s with dc := { s.dc with run := { RunRec.idle with state := r, origin := o } } }

/-! ## Well-formed commands: what each check refuses -/

theorem test_wf_command_byte : (Instr.badCommand 0x3C).wf = false ∧ (Instr.badCommand 0xC3).wf = false ∧
    (Instr.badCommand 0x00).wf = true := by decide

theorem test_wf_plain_write : (Instr.hostWriteWord 0x021F 0).wf = false ∧ (Instr.hostWriteWord 0x1003 0).wf = false ∧
    (Instr.hostWriteWord 0x1004 0).wf = false ∧ (Instr.hostWriteWord 0x1001 0x101).wf = false ∧
    (Instr.hostWriteWord 0x0300 5).wf = false ∧ (Instr.hostWriteWord 0x0470 1).wf = false := by decide

theorem test_wf_plain_write_accepts : (Instr.hostWriteWord 0x1001 0x100).wf = true ∧
    (Instr.hostWriteWord 0x0300 0).wf = true ∧ (Instr.hostWriteWord 0x0480 1).wf = true ∧
    (Instr.hostWriteWord 0x0301 1).wf = true := by decide

theorem test_wf_unknown_action : (Instr.unknownAction 0x0A).wf = false ∧ (Instr.unknownAction 0x100).wf = false ∧
    (Instr.unknownAction 0x0B).wf = true := by decide

theorem test_wf_slot_unknown_action : (Instr.slotUnknownAction 0 4).wf = false ∧
    (Instr.slotUnknownAction 0 0).wf = false ∧ (Instr.slotUnknownAction 0 0x101).wf = true := by decide

/-- No row of the table gives bits (spec/opcode_table.json), so no word spells a command. -/
theorem test_no_word_spells_a_command : decodeTableWord 32 1 = none := rfl

/-! ## The manual's worked examples -/

/-- 4, "A cab with three layers". -/
theorem test_compose_cab_example :
    layers
        [{ work with combine := .ceiling, target := 210 },
          { work with combine := .blend, alpha := some 8, target := 230, halfBand := 5 },
          { work with target := 190, halfBand := 10 }] =
      ⟨some 202, some 210⟩ := by decide

/-- 4, "A blend that moves downward". -/
theorem test_compose_blend_downward :
    applyEntry { work with combine := .blend, alpha := some 3, target := 185, halfBand := 0 } ⟨some 200, some 210⟩ =
      ⟨some 198, some 206⟩ := by decide

/-- 4, "Floor and ceiling crossings", in both orders. -/
theorem test_compose_crossings :
    layers
          [{ work with combine := .ceiling, target := 240 }, { work with combine := .floor, target := 250 },
            { work with target := 200, halfBand := 15 }] = ⟨some 240, some 240⟩ ∧
      layers
          [{ work with combine := .floor, target := 250 }, { work with combine := .ceiling, target := 240 },
            { work with target := 200, halfBand := 15 }] = ⟨some 250, some 250⟩ := by decide

/-- 4, "A blend over an absent side". -/
theorem test_compose_absent_side :
    layers
        [{ work with combine := .blend, alpha := some 4, target := 190, halfBand := 10 },
          { work with combine := .floor, target := 160 }] = ⟨some 165, some 200⟩ := by decide

/-- 4, "Hard state and the clamp on a drive unit": the clamp alone, and over the CEILING. -/
theorem test_compose_high_clamp :
    highClamp 660 Band.open = ⟨none, some 660⟩ ∧ highClamp 660 ⟨none, some 600⟩ = ⟨none, some 600⟩ ∧
      lowClamp (-170) Band.open = ⟨some (-170), none⟩ := by decide

/-- 8, "A clamp inside ALLOT". -/
theorem test_allot_clamp :
    allotGrants 1000 [⟨.packA, 100, 15⟩, ⟨.packB, 10000, 1⟩] = [(.packA, 100), (.packB, 900)] := by decide

/-- 8, "Worked pass": ambient pumping for the two packs, and for CAB. -/
theorem test_allot_worked_pass :
    allotGrants 2500 [⟨.packA, 1470, 8⟩, ⟨.packB, 1190, 8⟩] = [(.packA, 1381), (.packB, 1118)] ∧
      allotGrants 1 [⟨.cab, 700, 4⟩] = [(.cab, 1)] := by decide

/-- 10: the DRIVE sequence's power allowance at 705 with limits 700 and 780, and PACK's charge allowances. -/
theorem test_allowances :
    powerAllowance { cabLimits with softHi := 700, hardHi := 780 } 705 = 937 ∧
      chargeAllowance { cabLimits with coldZero := 0, coldFull := 150 } 80 = 533 ∧
      chargeAllowance { cabLimits with coldZero := 0, coldFull := 150 } 95 = 633 := by decide

/-- 10: the second evaluation publishes 533 + 20. -/
theorem test_allowance_rise : publishAllowance false 20 633 ⟨533, 533⟩ = ⟨633, 553⟩ := by decide

/-- 7, "A cab losing one of three channels": MEAN of three and of two values, and below 0. -/
theorem test_mean :
    aggregate (some .mean) [212, 205, 199] = some 205 ∧ aggregate (some .mean) [212, 205] = some 208 ∧
      aggregate (some .mean) [-153, -150] = some (-152) := by decide

/-- 7, "Coolant level on a rough road": samples 6 and 7 with N = 3. -/
theorem test_filter : filterSample 3 true ⟨false, 2⟩ = (⟨false, 3⟩, false) ∧
    filterSample 3 true ⟨false, 3⟩ = (⟨true, 0⟩, true) := by decide

/-- 5: 2031-03-04 is a Tuesday, 2000-01-01 a Saturday; the last second of the calendar. -/
theorem test_calendar :
    weekdayOf (dayNumber 2031 3 4) = 1 ∧ weekdayOf (dayNumber 2000 1 1) = 5 ∧
      fieldsOf 3155759999 = ⟨2099, 12, 31, 23, 59, 59⟩ ∧ lastDay 2028 2 = 29 ∧ lastDay 2031 2 = 28 := by decide

/-- 6, R91: a SAMPLE to address 1 sends address, 0x21, length 0 and the check 0xDF. -/
theorem test_request_bytes : requestBytes (linked .active .due 0) ⟨0, false⟩ = [1, 0x21, 0, 0xDF] := by decide

/-- 6, R94: a DRIVE with one output holding 400 (0x190). -/
theorem test_drive_bytes : requestBytes (running 0) ⟨0, true⟩ = [1, 0x42, 2, 0x90, 0x01, 0x2B] := by decide

/-- 6, R101: a MIXED entry gives its SAMPLE, then its DRIVE. -/
theorem test_exchange_list : exchangeList (running 0) = [⟨0, false⟩, ⟨0, true⟩] := by decide

/-- 9: aim and fault byte: bit 0 before bit 1 (R157). -/
theorem test_fault_byte : faultByteKind 3 = some .stall ∧ faultByteKind 2 = some .overtemp ∧
    faultByteKind 0x80 = some .nodeFault ∧ faultByteKind 0 = none := by decide

/-- 13.2: ID reads 0x0D742601. -/
theorem test_id : (readWord State.reset 0x1000).1 = 0x0D742601 := by decide

/-- R16: MODE_ACTIVE in UNCONFIGURED answers WRONG_STATE. -/
theorem test_mode_active_wrong_state :
    (takeModeActive State.reset).pi.lastResult = .wrongState := by decide

/-- 2: a CONFIGURE of the test area passes every check. -/
theorem test_area_passes : configureRefusal PU.reset cfg = none := by decide

/-- 1, "Re-using slot 3": a RELEASE, then a body word. -/
theorem test_release_then_body :
    (writeControl 3 4 (withSlot 3 .ended none (device .parked))).du.slots.get 3 =
      { SlotRec.empty with result := .done } := by decide

/-- 12: HVOK lost in MELT aborts the run. -/
theorem test_hvok_aborts :
    (abortRun .hvok (withRun .melt (some .auto) (running 5))).dc.run.state = .restore := by decide

/-- 1, R1: outside a transaction a word does nothing, and inside one it is stored. -/
theorem test_words_act_in_a_transaction :
    exec (.hostWriteWord 0x200 5) State.reset = .next State.reset ∧
      ∃ t, exec (.hostWriteWord 0x200 5) ready = .next t ∧ memRead t.xm 0x200 = 5 := ⟨rfl, _, rfl, by decide⟩

/-- 1, R1: in a READ what the host sends is ignored; in a WRITE the words go on at the next address, 0x0000 after
0xFFFF, and at no other. -/
theorem test_words_follow_in_order :
    exec (.hostWriteWord 0x200 5) { ready with pi := { ready.pi with port := .words .read 0x200 } } =
        .next { ready with pi := { ready.pi with port := .words .read 0x200 } } ∧
      exec (.hostWriteWord 0x202 5) { ready with pi := { ready.pi with port := .words .write 0x201 } } =
        .next { ready with pi := { ready.pi with port := .words .write 0x201 } } ∧
      ∃ t, exec (.hostWriteWord 0xFFFF 5) ready = .next t ∧ t.pi.port = .words .write 0x0000 :=
  ⟨rfl, rfl, _, rfl, by decide⟩

/-- 5, R77: behind a TIME_SET, which sets the divider to 0, a rollover does not occur; at the divider's end it does. -/
theorem test_stale_rollover :
    exec .secondRollover State.reset = .next State.reset ∧
      (rollover { State.reset with cc := { CC.reset with divider := 32768000 } }).cc.time = 1 := ⟨rfl, by decide⟩

/-- 8, R125: behind a commit that restarts the timer an expiry no longer falls due; while LOCKED it falls due at 1.5
periods, and after it the lock is lost. -/
theorem test_stale_period_expiry :
    exec .periodExpiry (running 0) = .next (running 0) ∧ exec .periodExpiry (running 1499) = .next (running 1499) ∧
      (timerExpires (running 1500)).be.lock = .lockLost := ⟨rfl, rfl, by decide⟩

/-- 2, R31, R32: a wake timer that was restarted keeps a stale expiry from ending the waiters. -/
theorem test_stale_wake_timeout :
    (wakeExpires { device .parked with mc := { (device .parked).mc with wake := true, wakeTimer := some 60000 } }).mc.wakeTimer
      = some 60000 := by decide

/-- 6, R90, R106: the line's direction and level. -/
theorem test_line_levels :
    [LinkWork.off, .brk, .preamble, .waiting, .due, .sending [], .window].map ldirHigh =
        [false, true, true, false, false, true, false] ∧
      ltxAt .brk 0 = false ∧ ltxAt .preamble 0 = true ∧ ltxAt .off 5 = true ∧
      (List.range 12).map (ltxAt (.sending [character true 1])) =
        [false, true, false, false, false, false, false, false, false, true, true, true] := by decide

/-- 11, R179: a PREPARE that ends in SUSPENDED sets the phase timer to 0. -/
theorem test_prepare_to_suspended :
    (prepareEnds { running 5 with dc := { DC.reset with run := { RunRec.idle with
      state := .prepare, phaseTimer := 60000, pendingSuspend := true } } }).dc.run.phaseTimer = 0 := by decide

/-! ## The hypotheses of the statements are met -/

/-- A port at the start of a transaction takes any word. -/
def takesAny (s : State) : Prop := ∀ d a, portTakes d a s

theorem takes_any {s : State} (h : s.resetHeld = false) (hp : s.pi.port = .command) : takesAny s :=
  fun _ _ => ⟨h, .inl hp⟩

theorem takes_device (d : DeviceState) : takesAny (device d) := takes_any rfl rfl

theorem takes_linked (d : DeviceState) (w : LinkWork) (c : Nat) : takesAny (linked d w c) := takes_any rfl rfl

theorem takes_running (t : Nat) : takesAny (running t) := takes_any rfl rfl

theorem takes_ready : takesAny ready := takes_any rfl rfl

theorem test_witness_StepRunsTheFrontCommand :
    ({ State.reset with pending := [.startBit, .ssnFall] } : State).pending = .startBit :: [.ssnFall] := rfl

theorem test_witness_IdleStepIsOneMillisecond : (running 5).pending = [] := rfl

/-- The millisecond at which the grant timeout and PREPARE's end fall due: they join in their order. -/
theorem test_idle_expiries :
    ((tick
      { withRun .prepare none (running 5) with
        mu := { MU.reset with copy := ⟨8000, ⟨0, 0, 0, 0, 0⟩, true⟩, commitAge := some 4999 }
        dc := { DC.reset with run := { RunRec.idle with state := .prepare, phaseTimer := 29999 } } }).pending) =
      [.grantTimeout, .prepareEnd] := by decide

theorem test_witness_StepKeepsTheMemoryCanonical :
    memoryCanonical (running 5) ∧ ∃ t, step (running 5) = .next t :=
  ⟨by unfold memoryCanonical; decide, _, rfl⟩

theorem test_witness_StepKeepsTheModesConsistent :
    (busyMatchesState (running 5) ∧ lockOffAtRest (running 5) ∧ linkMatchesState (running 5) ∧
      configuredUnlessReset (running 5)) ∧ ∃ t, step (running 5) = .next t := by
  refine ⟨⟨rfl, ?_, ?_, ?_⟩, _, rfl⟩
  · unfold lockOffAtRest; decide
  · unfold linkMatchesState; decide
  · constructor <;> intro h <;> cases h

/-- `directiveLists` in a form that `decide` evaluates. -/
abbrev ListsHold (s : State) : Prop :=
  let due := fun k => (slotRec s k).due.getD 0
  let layered := fun z i => ((slotRec s i).work.any fun w => decide (w.kind ≠ .procedure ∧ w.zone = z)) = true
  (∀ z ∈ allZones,
    ((stackOf s z).length ≤ 4 ∧ (stackOf s z).Nodup ∧ (waitOf s z).Nodup) ∧
      ((stackOf s z).Pairwise fun i j => slotRank s i ≤ slotRank s j) ∧
      ((waitOf s z).Pairwise fun i j => slotRank s i < slotRank s j ∨
        (slotRank s i = slotRank s j ∧ (due i < due j ∨ (due i = due j ∧ i.val < j.val)))) ∧
      (∀ i, (i ∈ stackOf s z ↔ (slotRec s i).state = .active ∧ layered z i) ∧
        (i ∈ waitOf s z ↔ (slotRec s i).state = .waiting ∧ layered z i)) ∧
      if s.mc.state = .active then waitOf s z ≠ [] → (stackOf s z).length = 4 else stackOf s z = []) ∧
  ∀ i, ((slotRec s i).work.isSome = true ↔
      (slotRec s i).state = .pending ∨ (slotRec s i).state = .waiting ∨ (slotRec s i).state = .active) ∧
    (((slotRec s i).state = .active ∧ ((slotRec s i).work.any fun w => decide (w.kind = .procedure)) = true) ↔
      s.dc.run.state ≠ .idle ∧ s.dc.run.origin = some (.slot i))

theorem directiveLists_of_hold {s : State} (h : ListsHold s) : directiveLists s := by
  obtain ⟨hz, hi⟩ := h
  have hall := mem_allZones
  have hold : listsHoldTheirZone s := fun z i => by
    simpa [Option.any_eq_true] using (hz z (hall z)).2.2.2.1 i
  refine ⟨fun z => (hz z (hall z)).1.1, fun z => ⟨(hz z (hall z)).1.2.1, (hz z (hall z)).1.2.2, (hz z (hall z)).2.1,
    (hz z (hall z)).2.2.1⟩, hold, ⟨fun y z i hy hw => ?_, fun y z i h => ?_⟩, ?_, fun i => (hi i).1, fun i => ?_⟩
  · have a := ((hold y i).1.1 hy).1.symm.trans ((hold z i).2.1 hw).1
    cases a
  · have a : ∀ {v}, i ∈ stackOf s v ∨ i ∈ waitOf s v → ∃ w, (slotRec s i).work = some w ∧ w.zone = v := fun {v} h => by
      rcases h with h | h
      · obtain ⟨-, w, hw, -, e⟩ := (hold v i).1.1 h
        exact ⟨w, hw, e⟩
      · obtain ⟨-, w, hw, -, e⟩ := (hold v i).2.1 h
        exact ⟨w, hw, e⟩
    obtain ⟨w, hw, rfl⟩ := a (h.elim (fun h => .inl h.1) fun h => .inr h.1)
    obtain ⟨q, hq, rfl⟩ := a (v := z) (h.elim (fun h => .inl h.2) fun h => .inr h.2)
    rw [hw] at hq; cases hq; rfl
  · unfold waitsOnlyWhileFull
    split
    · rename_i ha
      exact fun z => by simpa [ha] using (hz z (hall z)).2.2.2.2
    · rename_i ha
      exact fun z => by simpa [ha] using (hz z (hall z)).2.2.2.2
  · simpa [Option.any_eq_true] using (hi i).2

/-- ACTIVE at minute stamp 100: CAB's stack is full with slots 4 to 7, slot 8 waits for it, and slot 4's end is given. -/
def fullEnding (e : End) : State :=
  withLists [4, 5, 6, 7] [8] (withSlot 4 .active (some { work with ending := e }) (withSlot 5 .active (some work)
    (withSlot 6 .active (some work) (withSlot 7 .active (some work) (withSlot 8 .waiting (some work)
      { running 5 with cc := { CC.reset with set := true, time := 6000 } })))))

theorem lists_fullEnding : directiveLists (fullEnding .none) := directiveLists_of_hold (by decide)

theorem test_witness_StepKeepsTheListsAndCapacities :
    (stacksBounded (running 5) ∧ trackingBounded (running 5) ∧ countsBounded (running 5)) ∧
      (∃ t, step (running 5) = .next t) ∧ directiveLists (fullEnding .none) ∧ ∃ t, step (fullEnding .none) = .next t := by
  refine ⟨⟨fun z => ?_, ?_, ?_⟩, ⟨_, rfl⟩, lists_fullEnding, _, rfl⟩
  · cases z <;> decide
  · unfold trackingBounded; decide
  · unfold countsBounded; decide

/-- The command of actuator 0 is in its range; the other actuators have none. -/
theorem running_commands : ∀ a : Fin 12, ((running 5).au.acts.get a).command = none ∨
    ((running 5).au.acts.get a).command = some 400 ∧ (cfg.acts.get a).min = 0 ∧ (cfg.acts.get a).max = 1000 := by
  decide

theorem test_witness_StepKeepsLimitsAndCommandsInRange :
    (configInRange (running 5) ∧ limitsOrdered (running 5) ∧ hardOnlyWithHigh (running 5) ∧
      commandsInRange (running 5) ∧ frostInRange (running 5)) ∧ ∃ t, step (running 5) = .next t := by
  refine ⟨⟨fun c h => ?_, fun z l h => ?_, fun z h => ?_, fun c h a v _ hv => ?_, ?_, fun c h => ?_⟩, _, rfl⟩
  · cases h; decide
  · cases z <;> rcases h with h | h <;> cases h <;> decide
  · cases z <;> cases h
  · cases h
    rcases running_commands a with h | ⟨h, h1, h2⟩
    · rw [h] at hv; cases hv
    · rw [h] at hv; cases hv; rw [h1, h2]; decide
  · decide
  · cases h; decide

/-- CAB's lock holds its limits in force. -/
def locked : State :=
  { running 5 with
    pu := { (running 5).pu with
      zones := zset (running 5).pu.zones .cab { ZoneProtect.reset with limits := some cabLimits, locked := some cabLimits } } }

theorem test_witness_LockedLimits_1 :
    Instr.commit 0 ≠ .powerOnReset ∧ (∃ t, exec (.commit 0) locked = .next t) ∧
      (zget locked.pu.zones .cab).locked = some cabLimits ∧ (zget locked.pu.zones .cab).limits = some cabLimits :=
  ⟨by decide, ⟨_, rfl⟩, rfl, rfl⟩

/-- PARKED with locks that the area does not match; and with locks that it does. -/
def otherLock : State :=
  { device .parked with
    pu := { PU.reset with zones := zmk fun _ => { ZoneProtect.reset with locked := some { cabLimits with margin := 11 } } } }

def sameLock : State :=
  { device .parked with
    pu := { PU.reset with zones := zmk fun z => { ZoneProtect.reset with locked := some (zget cfg.zones z).limits } } }

theorem test_witness_LockedLimits_2 :
    takesAny otherLock ∧ otherLock.pi.busy = false ∧ otherLock.mc.state = .parked ∧
      (zget otherLock.pu.zones .cab).locked = some { cabLimits with margin := 11 } ∧
      (zget (cfgOfArea otherLock.xm).zones .cab).limits ≠ { cabLimits with margin := 11 } :=
  ⟨takes_any rfl rfl, rfl, rfl, rfl, by decide⟩

theorem test_witness_LockedLimits_3 :
    takesAny sameLock ∧ sameLock.pi.busy = false ∧ sameLock.mc.state = .parked ∧
      (zget sameLock.pu.zones .cab).locked = some cabLimits ∧ checkLocks sameLock.pu (cfgOfArea sameLock.xm) = true :=
  ⟨takes_any rfl rfl, rfl, rfl, rfl, by decide⟩

theorem test_witness_DeviceState :
    (Instr.modeActive 0).wf = true ∧ (∃ t, exec (.modeActive 0) (device .parked) = .next t) := ⟨rfl, _, rfl⟩

theorem test_witness_OnlyTheNamedWord_1 :
    (Instr.hostWriteWord 0x200 5).wf = true ∧ Instr.hostWriteWord 0x200 5 ≠ .powerOnReset ∧
      (∀ p, Instr.hostWriteWord 0x200 5 ≠ .portReset p) ∧
      (∃ t, exec (.hostWriteWord 0x200 5) (device .parked) = .next t) ∧
      storedAt (.hostWriteWord 0x200 5) ≠ some 0x201 := ⟨by decide, nofun, nofun, ⟨_, rfl⟩, by decide⟩

theorem test_witness_OnlyTheNamedWord_2 :
    takesAny (device .parked) ∧ (∃ t, exec (.portReset 0) (device .parked) = .next t) ∧
      (∃ n : Slot, 0x470 = 0x300 + 16 * n.val) ∧ (∀ n : Slot, 0x480 ≠ 0x300 + 16 * n.val) :=
  ⟨takes_device _, ⟨_, rfl⟩, ⟨23, rfl⟩, by decide⟩

theorem test_witness_CauseFlagsStaySet :
    Instr.startBit.wf = true ∧ Instr.startBit ≠ .powerOnReset ∧ (∀ p, Instr.startBit ≠ .portReset p) ∧
      (∀ v, Instr.startBit ≠ .causeWrite v) ∧ (∃ t, exec .startBit (raise .slotEnd State.reset) = .next t) ∧
      causeIsSet (raise .slotEnd State.reset) .slotEnd = true := ⟨rfl, nofun, nofun, nofun, ⟨_, rfl⟩, by decide⟩

/-- RESETn asserted; and a void transaction. -/
def held : State := { ready with resetHeld := true }

def void : State := { State.reset with pi := { PI.reset with port := .void } }

/-- A transaction whose next word is at an address. -/
def within (d : Direction) (a : Addr) : State := { State.reset with pi := { PI.reset with port := .words d a } }

theorem test_witness_Transactions_1 :
    accessOf (.commit 0) = some (.write, 0x21F) ∧ held.resetHeld = true ∧ void.pi.port = .void ∧
      State.reset.pi.port = .waiting ∧ (within .read 0x21F).pi.port = .words .read 0x21F ∧ Direction.read ≠ .write ∧
      (within .write 0x220).pi.port = .words .write 0x220 ∧ (0x220 : Addr) ≠ 0x21F ∧
      portTakes .write 0x21F (within .write 0x21F) ∧ accessOf (.hostWriteWord 0xFFFF 1) = some (.write, 0xFFFF) ∧
      portTakes .write 0xFFFF ready :=
  ⟨rfl, rfl, rfl, rfl, rfl, by decide, rfl, by decide, ⟨rfl, .inr rfl⟩, rfl, takes_ready _ _⟩

/-- 1.1: the word 0x80000001 goes out as the bytes 01, 00, 00, 80, each with its most significant bit first. -/
theorem test_sdo_bits :
    let s : State := { State.reset with pi := { PI.reset with port := .words .read 0x21F, sdo := 0x80000001 } }
    s.pi.port = .words .read 0x21F ∧ (List.range 40).filter (sdoAt s) = [7, 24] ∧
      (List.range 40).filter (sdoAt ready) = [] := by decide

theorem test_witness_Transactions_2 :
    State.reset.resetHeld = false ∧ State.reset.pi.port = .waiting ∧ void.pi.port ≠ .waiting ∧
      ready.resetHeld = false ∧ ready.pi.port = .command ∧ (0x3D : Byte) ≠ 0x3C ∧ (0x3D : Byte) ≠ 0xC3 ∧
      held.resetHeld = true ∧ void.pi.port ≠ .command :=
  ⟨rfl, rfl, by decide, rfl, rfl, by decide, by decide, rfl, by decide⟩

theorem test_witness_HostReads_1 :
    takesAny ready ∧ (0x22F : Addr).toNat < 0x230 ∧
      (∃ (n : Slot) (k : Nat), k < 12 ∧ (0x47B : Addr).toNat = 0x300 + 16 * n.val + k) :=
  ⟨takes_ready, by decide, 23, 11, by decide, by decide⟩

theorem test_witness_HostReads_2 :
    takesAny ready ∧ ((0x502 : Addr) = 0x500 ∧ SlotState.waiting = .ended ∨
      (0x502 : Addr) = 0x501 ∧ SlotState.waiting = .active ∨ (0x502 : Addr) = 0x502 ∧ SlotState.waiting = .waiting) :=
  ⟨takes_ready, by decide⟩

theorem test_witness_HostReads_status :
    takesAny ready ∧ (15, 0) ∈ [(12, 0), (13, 0), (14, 0),
      (15, (slotRec ready 23).firedOn.getD 0 % 0x10000 + 0x80000000 * bit (slotRec ready 23).firedOn.isSome)] :=
  ⟨takes_ready, by decide⟩

/-- Where an address is unmapped, as the statement has it. -/
def inHole (a : Addr) : Bool :=
  (0x230 ≤ a.toNat && a.toNat < 0x300) || (0x480 ≤ a.toNat && a.toNat < 0x500)
    || (0x503 ≤ a.toNat && a.toNat < 0x600) || (0x810 ≤ a.toNat && a.toNat < 0x1000) || 0x1005 ≤ a.toNat

theorem test_witness_UnmappedAccesses :
    takesAny ready ∧ [0x230, 0x2FF, 0x480, 0x4FF, 0x503, 0x5FF, 0x810, 0xFFF, 0x1005, 0xFFFF].all inHole :=
  ⟨takes_ready, by decide⟩

/-- Both windows open. -/
def windows : State :=
  { State.reset with
    pi := { PI.reset with port := .command, publication := some [1, 2] }
    cc := { CC.reset with rewrite := some [3], rewriteDue := true } }

theorem test_witness_ReportReads :
    takesAny windows ∧ 0x600 ≤ (0x7FF : Addr).toNat ∧ (0x7FF : Addr).toNat < 0x800 ∧
      windows.pi.publication.isSome = true ∧ ready.pi.publication = none :=
  ⟨takes_any rfl rfl, by decide, by decide, rfl, rfl⟩

theorem test_witness_Windows :
    windows.pi.publication = some [1, 2] ∧ windows.cc.rewrite = some [3] ∧ State.reset.pi.publication = none ∧
      State.reset.cc.rewrite = none ∧ takesAny windows ∧ 0x800 ≤ (0x80F : Addr).toNat ∧
      (0x80F : Addr).toNat < 0x810 ∧ windows.cc.rewrite.isSome = true :=
  ⟨rfl, rfl, rfl, rfl, takes_any rfl rfl, by decide, by decide, rfl⟩

theorem test_witness_Windows_words : CC.reset.time < 3155760000 ∧ (0x6F0 ≤ 0x6FF ∧ 0x6FF ≤ 0x6FF) ∧
    (22 ≤ 31 ∧ 31 < 32) ∧ exchangeInFlight .window = true := by decide

theorem test_witness_ConfigurationArea :
    takesAny ready ∧ (0x1FF : Addr).toNat < 0x200 ∧ ready.mc.state = .unconfigured ∧
      takesAny (running 5) ∧ (running 5).mc.state ≠ .unconfigured ∧ (running 5).mc.state ≠ .parked :=
  ⟨takes_ready, by decide, rfl, takes_running _, by decide, by decide⟩

theorem test_witness_OwnershipMap_slot :
    takesAny ready ∧ (0x479 : Addr).toNat = 0x300 + 16 * (23 : Slot).val + 9 ∧
      (slotRec ready 23).state = .empty ∧ takesAny (withSlot 23 .active (some work) (running 5)) ∧
      (slotRec (withSlot 23 .active (some work) (running 5)) 23).state ≠ .empty ∧
      (0x47F : Addr).toNat = 0x300 + 16 * (23 : Slot).val + 15 ∧ (0x300 : Addr).toNat = 0x300 + 16 * (0 : Slot).val + 0 :=
  ⟨takes_ready, by decide, by decide, takes_any rfl rfl, by decide, by decide, by decide⟩

theorem test_witness_OwnershipMap_pages :
    takesAny ready ∧ 0x200 ≤ (0x22F : Addr).toNat ∧ (0x22F : Addr).toNat < 0x230 ∧
      (0x22F : Addr).toNat ≠ 0x21F ∧ 0x500 ≤ (0x502 : Addr).toNat ∧ (0x502 : Addr).toNat < 0x503 :=
  ⟨takes_ready, by decide, by decide, by decide, by decide, by decide⟩

theorem test_witness_CauseAndMask : takesAny (running 5) := takes_running _

theorem test_witness_CtrlRefused_busy :
    takesAny (device .quiescing) ∧ (device .quiescing).pi.busy = true ∧ (device .quiescing).mc.state = .quiescing ∧
      (device .starting).pi.busy = true ∧ (device .starting).mc.state = .starting ∧
      (device .parking).mc.state = .parking := ⟨takes_device _, rfl, rfl, rfl, rfl, rfl⟩

theorem test_witness_CtrlRefused_state :
    takesAny (device .active) ∧ (device .active).pi.busy = false ∧ (device .active).mc.state = .active ∧
      (device .parked).pi.busy = false ∧ (device .parked).mc.state = .parked ∧
      ready.pi.busy = false ∧ ready.mc.state = .unconfigured ∧ 10 < (0x0B : Word).toNat % 256 :=
  ⟨takes_device _, rfl, rfl, rfl, rfl, rfl, rfl, by decide⟩

theorem test_witness_CtrlRefused_zero : takesAny ready ∧ (0xFFFFFF00 : Word).toNat % 256 = 0 :=
  ⟨takes_ready, by decide⟩

theorem test_witness_ModeActive :
    takesAny (device .parked) ∧ (device .parked).pi.busy = false ∧ (device .parked).mc.state = .parked ∧
      takesAny (linked .parking .window 1) ∧ (linked .parking .window 1).mc.state = .parking ∧
      (linked .parking .window 1).flc.work ≠ .off ∧ (linked .parking .due 1).flc.work = .due :=
  ⟨takes_device _, rfl, rfl, takes_linked _ _ _, rfl, by decide, rfl⟩

/-- ACTIVE with an entry in CAB's stack, one that waits, and a run in PREPARE. -/
def busyCab : State :=
  withRun .prepare (some .auto)
    (withLists [3] [4] (withSlot 3 .active (some work) (withSlot 4 .waiting (some work) (running 5))))

theorem test_witness_ModeParked :
    takesAny busyCab ∧ busyCab.mc.state = .active ∧ busyCab.pi.busy = false ∧ 3 ∈ stackOf busyCab .cab ∧
      (∀ y ∈ allZones, 3 ∈ stackOf busyCab y → y = .cab) ∧ 4 ∈ waitOf busyCab .cab ∧
      (∀ y ∈ allZones, 4 ∉ stackOf busyCab y) ∧ (slotRec busyCab 4).state = .waiting ∧
      (∀ y ∈ allZones, 5 ∉ stackOf busyCab y) ∧ (slotRec busyCab 5).state ≠ .waiting ∧
      busyCab.dc.run.state ≠ .idle ∧ (running 5).dc.run.state = .idle ∧ (linked .starting .due 0).mc.state = .starting :=
  ⟨takes_any rfl rfl, rfl, rfl, by decide, by decide, by decide, by decide, by decide, by decide, by decide,
    by decide, rfl, rfl⟩

theorem test_witness_ModeParked_lists :
    takesAny (fullEnding .none) ∧ (fullEnding .none).mc.state = .active ∧ (fullEnding .none).pi.busy = false ∧
      directiveLists (fullEnding .none) ∧ stackOf (fullEnding .none) .cab = [4, 5, 6, 7] ∧
      waitOf (fullEnding .none) .cab = [8] := ⟨takes_any rfl rfl, rfl, rfl, lists_fullEnding, rfl, rfl⟩

/-- 11.6, R186: a DRIP with a suspend pending is aborted into RESTORE with its phase timer at 0, and a RESTORE under way
keeps its timer and an earlier cause. -/
theorem test_aborted :
    let r := { RunRec.idle with state := .drip, phaseTimer := 5, meltTime := 9, pendingSuspend := true, remembered := some .melt }
    let q := { RunRec.idle with state := .restore, phaseTimer := 5, aborted := some .hvok }
    (abortRun .parking { State.reset with dc := { DC.reset with run := r } }).dc.run =
        { RunRec.idle with state := .restore, meltTime := 9, aborted := some .parking } ∧
      (abortRun .parking { State.reset with dc := { DC.reset with run := q } }).dc.run = q := by decide

theorem test_witness_ModeParked_link :
    (running 5).flc.work = .waiting ∧ exchangeList (running 5) ≠ [] ∧ (linked .active .window 1).flc.work ≠ .waiting ∧
      (linked .active .window 1).flc.after ≠ .cut ∧
      ({ running 5 with flc := { FLC.reset with work := .window, after := .cut } } : State).flc.after = .cut := by decide

/-- STARTING with no enabled node. -/
def noNodes : State :=
  { linked .starting .waiting 0 with
    mc := { MC.reset with state := .starting, config := some { cfg with nodes := Vector.replicate 30 ⟨false, none, 0⟩ } } }

theorem test_witness_Quiesce :
    takesAny busyCab ∧ busyCab.mc.state = .active ∧ busyCab.pi.busy = false ∧ busyCab.mc.config = some cfg ∧
      (slotRec busyCab 3).state = .active ∧ (slotRec busyCab 5).state = .empty ∧ (cfg.acts.get 0).enable = true ∧
      takesAny noNodes ∧ noNodes.mc.state = .starting ∧ exchangeList noNodes = [] ∧ noNodes.flc.work = .waiting :=
  ⟨takes_any rfl rfl, rfl, rfl, rfl, by decide, by decide, by decide, takes_any rfl rfl, rfl, by decide, rfl⟩

theorem test_witness_ModeParked_empty : noNodes.mc.state = .starting ∧ noNodes.flc.work = .waiting ∧
    exchangeList noNodes = [] := by decide

theorem test_witness_Quiesce_link :
    exchangeInFlight (linked .active .window 0).flc.work = true ∧ (linked .parking .brk 0).flc.work = .brk ∧
      (linked .starting .preamble 0).flc.work = .preamble ∧ (device .active).flc.work = .off ∧
      (linked .active .due 0).flc.work = .due ∧ exchangeList (linked .active .due 0) ≠ [] ∧
      takesAny (linked .active .due 0) ∧ noNodes.mc.config.isSome = true :=
  ⟨rfl, rfl, rfl, rfl, rfl, by decide, takes_linked _ _ _, rfl⟩

/-- The test area with a word replaced. -/
def areaWith (a : Nat) (v : Word) : Memory := memWrite area a v

theorem test_witness_Configure_refusals :
    takesAny ready ∧ ready.pi.busy = false ∧ ready.mc.state = .unconfigured ∧
      checkRanges (cfgOfArea []) = false ∧ checkRanges (cfgOfArea (areaWith 0x11 0x105)) = true ∧
      checkAddresses (cfgOfArea (areaWith 0x11 0x105)) = false := ⟨takes_ready, rfl, rfl, by decide⟩

theorem test_witness_Configure_reference :
    checkRanges (cfgOfArea (areaWith 0x10 0x103)) = true ∧ checkAddresses (cfgOfArea (areaWith 0x10 0x103)) = true ∧
      checkReferences (cfgOfArea (areaWith 0x10 0x103)) = false := by decide

theorem test_witness_Configure_locks :
    takesAny otherLock ∧ otherLock.mc.state = .parked ∧ checkLocks otherLock.pu cfg = false :=
  ⟨takes_any rfl rfl, rfl, by decide⟩

theorem test_witness_Configure_passes :
    takesAny (device .parked) ∧ (device .parked).pi.busy = false ∧ (device .parked).mc.state = .parked ∧
      cfg = cfgOfArea (device .parked).xm ∧ checkRanges cfg = true ∧ checkAddresses cfg = true ∧
      checkReferences cfg = true ∧ checkLocks (device .parked).pu cfg = true :=
  ⟨takes_device _, rfl, rfl, rfl, by decide, by decide, by decide, by decide⟩

/-- PARKED with a current copy of an age. -/
def parkedCopy (age : Nat) : State :=
  { device .parked with mu := { MU.reset with copy := ⟨8000, ⟨0, 0, 0, 0, 0⟩, true⟩, commitAge := some age } }

theorem test_witness_Configure_stale :
    takesAny (parkedCopy 5000) ∧ (parkedCopy 5000).mc.state = .parked ∧ (parkedCopy 5000).mu.copy.current = true ∧
      cfg = cfgOfArea (parkedCopy 5000).xm ∧ (parkedCopy 5000).mu.commitAge = some 5000 ∧
      cfg.grantTimeout * 1000 ≤ 5000 ∧ 4999 < cfg.grantTimeout * 1000 ∧ checkLocks (parkedCopy 5000).pu cfg = true ∧
      (device .parked).mu.copy.current = false :=
  ⟨takes_any rfl rfl, rfl, rfl, rfl, rfl, by decide, by decide, by decide, rfl⟩

/-- 13.3: what the layout reads of the test area's words. -/
theorem test_area_layout :
    (cfg.period, cfg.lockEnable, cfg.divisor, cfg.wakeTimeout, cfg.catchWindow) = (1000, true, 1, 15, 30) ∧
      (cfg.grantTimeout, cfg.floorGrant, cfg.bitRate, cfg.missLimit, cfg.holdLimit, cfg.filterCount) =
        (5, 3000, 1, 2, 4, ⟨0, 3, 0⟩) ∧
      cfg.nodes.get 0 = ⟨true, some .mixed, 1⟩ ∧ cfg.channels.get 0 = ⟨true, 1, 0, -500, 1600⟩ ∧
      (cabLimits.tmin, cabLimits.hardHi, cabLimits.lowProtect, cabLimits.coldFull) = (-400, 600, -300, 0) ∧
      (zget cfg.zones .packA).limits.coldFull = 150 ∧
      ((cfg.acts.get 0).gain, (cfg.acts.get 0).rest, (cfg.acts.get 0).defrost) = (1000, 50, none) ∧
      (cfg.plant.copr, cfg.plant.hpMinAmb, cfg.plant.suspendMax, cfg.plant.autoDefrost) = (40, -200, 5, false) := by
  decide

theorem test_witness_PortReset : takesAny (device .quiescing) := takes_device _

theorem test_witness_LinkReset :
    takesAny (running 5) ∧ (running 5).mc.state = .active ∧ (running 5).pi.busy = false ∧
      (running 5).flc.work = .waiting ∧ takesAny (linked .starting .window 0) ∧
      (linked .starting .window 0).mc.state = .starting ∧ (linked .starting .window 0).flc.work ≠ .waiting ∧
      (linked .starting .window 0).flc.work ≠ .due ∧ (linked .starting .window 0).flc.work ≠ .off :=
  ⟨takes_running _, rfl, rfl, rfl, takes_linked _ _ _, rfl, by decide, by decide, by decide⟩

/-- In ACTIVE a zone without a measurement whose flag is clear is lost; one whose flag is set is not lost anew. -/
theorem test_witness_LinkReset_lost :
    let s := { running 5 with mu := { MU.reset with degraded := ⟨true, true, true, true, true⟩ } }
    measurement (running 5) .cab = none ∧ zget (running 5).mu.degraded .cab = false ∧
      (∀ z ∈ allZones, zget s.mu.degraded z = true) ∧ evaporatorClear (running 5) = false ∧
      (withRun .melt none (running 5)).dc.run.state = .melt := by decide

theorem test_witness_ClearFaults : takesAny ready ∧ ready.pi.busy = false := ⟨takes_ready, rfl⟩

theorem test_witness_LockLimits :
    takesAny (device .parked) ∧ (device .parked).pi.busy = false ∧ (device .parked).mc.state = .parked :=
  ⟨takes_device _, rfl, rfl⟩

/-- A clock-set block with 2031-03-05 05:03:20, a nudge of −30 seconds, and a clock at that time. -/
def clockBlock : State :=
  { ready with
    xm := wordsFrom 0x220 [2031, 3, 5, 5, 3, 20, 0xFFFFFFE2]
    cc := { CC.reset with time := secondsOf ⟨2031, 3, 5, 5, 3, 20⟩ } }

theorem test_witness_Clock_set :
    takesAny clockBlock ∧ clockBlock.pi.busy = false ∧
      [0x220, 0x221, 0x222, 0x223, 0x224, 0x225].map (fun k => (memRead clockBlock.xm k).toNat) =
        [2031, 3, 5, 5, 3, 20] ∧ 5 ≤ lastDay 2031 3 ∧ clockBlock.cc.rewrite = none :=
  ⟨takes_any rfl rfl, rfl, by decide, by decide, rfl⟩

theorem test_witness_Clock_bad :
    [0x220, 0x221, 0x222, 0x223, 0x224, 0x225].map (fun k => (memRead State.reset.xm k).toNat) = [0, 0, 0, 0, 0, 0] := by
  decide

theorem test_witness_Clock_nudge :
    -30 = (memRead clockBlock.xm 0x226).toInt ∧ 0 ≤ (clockBlock.cc.time : Int) + -30 ∧
      (clockBlock.cc.time : Int) + -30 < 3155760000 := by decide

theorem test_witness_Clock_nudge_bad :
    ¬ (0 ≤ (({ clockBlock with cc := CC.reset } : State).cc.time : Int) + -30) := by decide

theorem test_witness_SlotActions_1 :
    takesAny ready ∧ ready.mc.state = .unconfigured ∧ 4 < (5 : Word).toNat ∧
      takesAny busyCab ∧ busyCab.mc.state ≠ .unconfigured ∧ (slotRec busyCab 3).state ≠ .empty ∧
      (slotRec busyCab 5).state = .empty ∧ (slotRec busyCab 3).state ≠ .ended :=
  ⟨takes_ready, rfl, by decide, takes_any rfl rfl, by decide, by decide, by decide, by decide⟩

theorem test_witness_SlotActions_2 :
    (slotRec (withSlot 3 .active (some { work with kind := .procedure }) (running 5)) 3).state = .active ∧
      (slotRec (withSlot 3 .active (some { work with kind := .procedure }) (running 5)) 3).work =
        some { work with kind := .procedure } := by decide

/-- The device with the word 1 of slot 0's body. -/
def bodied (d : DeviceState) (w1 : Word) : State := { device d with xm := area ++ [(0x301, w1)] }

theorem test_witness_SlotActions_3 :
    takesAny (bodied .parked 3) ∧ (bodied .parked 3).mc.state ≠ .unconfigured ∧
      (slotRec (bodied .parked 3) 0).state = .empty ∧
      postJudgment (bodied .parked 3) (bodyOf (bodied .parked 3).xm 0) = .error .badKind :=
  ⟨takes_any rfl rfl, by decide, by decide, by rfl⟩

/-- A device at minute stamp 100, a Saturday at 01:40, with the body words of slot 0 from word 1 on. -/
def posting (d : DeviceState) (ws : List Nat) : State :=
  { device d with xm := area ++ wordsFrom 0x301 ws, cc := { CC.reset with set := true, time := 6000 } }

/-- The values in use that its POST makes. -/
def inUse (k : Kind) (ws : List Nat) : Working := workingOf (posting .active ws) k (bodyOf (posting .active ws).xm 0)

theorem takes_posting (d : DeviceState) (ws : List Nat) : takesAny (posting d ws) := takes_any rfl rfl

/-- Starts that are not met: AT 101, DAILY 01:41, AFTER 2, ON_LINE; and a REACH whose lead of 720 falls short. -/
theorem test_witness_Post_pending :
    (slotRec (posting .active []) 0).state = .empty ∧ (∀ z ∈ allZones, waitOf (posting .active []) z = []) ∧
      (∀ ws ∈ [[0x30, 0, 1, 101], [0x30, 0, 0x7F290102], [0x30, 0, 3, 2], [0x30, 0, 4]],
        postJudgment (posting .active ws) (bodyOf (posting .active ws).xm 0) = .ok .setpoint ∧
          (inUse .setpoint ws).kind = .setpoint) ∧
      (inUse .setpoint [0x30, 0, 1, 101]).start = .at 101 ∧
      (inUse .setpoint [0x30, 0, 0x7F290102]).start = .daily 101 127 ∧
      (inUse .setpoint [0x30, 0, 3, 2]).start = .after 2 ∧
      (inUse .setpoint [0x30, 0, 4]).start = .onLine .hvok ∧ accepted (posting .active []) .hvok = false ∧
      postJudgment (posting .active [0x31, 0, 0, 0, 0, 0, 821]) (bodyOf (posting .active [0x31, 0, 0, 0, 0, 0, 821]).xm 0)
        = .ok .reach ∧
      (inUse .reach [0x31, 0, 0, 0, 0, 0, 821]).deadline = 821 ∧ (inUse .reach [0x31, 0, 0, 0, 0, 0, 821]).lead = 720 := by
  decide

theorem test_witness_Post_pending_start :
    ¬ startComes false (posting .active [0x30, 0, 1, 101]) none { work with start := .at 101 } ∧
      ¬ startComes false (posting .active [0x30, 0, 3, 2]) none { work with start := .after 2 } ∧
      ¬ startComes false (posting .active []) none { work with kind := .reach, deadline := 821, lead := 720 } ∧
      startComes false (posting .active []) none { work with kind := .reach, deadline := 820, lead := 720 } ∧
      startComes false (posting .active []) none { work with start := .daily 100 127 } :=
  ⟨fun h => absurd h.2 (by decide), fun h => absurd h.1 (by decide), fun h => absurd h.2 (by decide),
    ⟨rfl, by decide⟩, ⟨rfl, by decide, by decide, by decide, by decide⟩⟩

/-- Ends that have come: a SETPOINT with an AT end of 100, once and DAILY; and a REACH of deadline 100, hold-after 0. -/
theorem test_witness_Post_ended :
    (∀ ws ∈ [[0x30, 0, 0, 0, 1, 100], [0x30, 0, 0x7F280102, 0, 1, 100]],
        postJudgment (posting .parked ws) (bodyOf (posting .parked ws).xm 0) = .ok .setpoint ∧
          (inUse .setpoint ws).kind = .setpoint ∧ (inUse .setpoint ws).ending = .at 100) ∧
      (inUse .setpoint [0x30, 0, 0, 0, 1, 100]).start = .now ∧
      (inUse .setpoint [0x30, 0, 0x7F280102, 0, 1, 100]).start = .daily 100 127 ∧
      postJudgment (posting .parked [0x31, 0, 0, 0, 0, 0, 100]) (bodyOf (posting .parked [0x31, 0, 0, 0, 0, 0, 100]).xm 0)
        = .ok .reach ∧
      (inUse .reach [0x31, 0, 0, 0, 0, 0, 100]).deadline = 100 ∧ (inUse .reach [0x31, 0, 0, 0, 0, 0, 100]).holdAfter = 0 ∧
      (posting .parked []).cc.time / 60 = 100 := by decide

theorem test_witness_Post_endHasCome :
    endHasCome (posting .parked []) { work with ending := .at 100 } ∧
      endHasCome (posting .parked []) { work with kind := .reach, deadline := 100 } ∧
      ¬ endHasCome (posting .parked []) { work with ending := .at 101 } ∧
      ¬ endHasCome (posting .parked []) { work with kind := .reach, deadline := 100, holdAfter := 1 } := by
  refine ⟨⟨rfl, .inl ⟨rfl, 100, rfl, by decide⟩⟩, ⟨rfl, .inr ⟨rfl, by decide⟩⟩, ?_, ?_⟩
  · rintro ⟨-, ⟨-, n, h, hn⟩ | ⟨h, -⟩⟩
    · cases h; revert hn; decide
    · cases h
  · rintro ⟨-, ⟨h, -⟩ | ⟨-, h⟩⟩
    · cases h
    · revert h; decide

/-- A REACH whose deadline is the present stamp is MET exactly where the measurement lies within its half-band. -/
theorem test_met_at_post :
    let s : State := { posting .active [] with
      mu := { MU.reset with channels := vset MU.reset.channels 0 ⟨some 220, 0, false, .online⟩ } }
    let w := { work with kind := .reach, deadline := 100 }
    metAtPost s w = .met ∧ metAtPost s { w with target := 209 } = .notMet ∧ metAtPost (posting .active []) w = .notMet ∧
      metAtPost s { w with deadline := 101 } = .notYet := by decide

/-- Directives that become due at their POST: WAKE with start NOW, a start AT 100, and a REACH at its deadline. -/
theorem test_witness_Post_due :
    (slotRec (posting .parked []) 0).state = .empty ∧ (posting .parked []).mc.config = some cfg ∧
      (∀ ws ∈ [[0x01000030], [0x30, 0, 1, 100]],
        postJudgment (posting .parked ws) (bodyOf (posting .parked ws).xm 0) = .ok .setpoint ∧
          (inUse .setpoint ws).ending = .none) ∧
      (inUse .setpoint [0x01000030]).wake = true ∧ (inUse .setpoint [0x30, 0, 1, 100]).start = .at 100 ∧
      postJudgment (posting .active [0x31, 0, 0, 0, 0, 0, 100, 5])
        (bodyOf (posting .active [0x31, 0, 0, 0, 0, 0, 100, 5]).xm 0) = .ok .reach ∧
      (inUse .reach [0x31, 0, 0, 0, 0, 0, 100, 5]).holdAfter = 5 ∧
      (∀ z ∈ allZones, 0 ∉ stackOf (posting .active []) z ∧ waitOf (posting .active []) z = []) ∧
      (stackOf (posting .active []) .cab).length < 4 := by decide

/-- ACTIVE with a full stack of class B in CAB, and slot 0's body. -/
def full (w1 : Word) : State :=
  withLists [3, 4, 5, 6] [] (withSlot 3 .active (some work) (withSlot 4 .active (some work)
    (withSlot 5 .active (some work) (withSlot 6 .active (some work) (bodied .active w1)))))

theorem test_witness_Post_full :
    takesAny (full 0x30) ∧ (slotRec (full 0x30) 0).state = .empty ∧ (full 0x30).mc.state = .active ∧
      postJudgment (full 0x30) (bodyOf (full 0x30).xm 0) = .ok .setpoint ∧
      startComes false (full 0x30) none (workingOf (full 0x30) .setpoint (bodyOf (full 0x30).xm 0)) ∧
      (full 0x30).cc.set = false ∧ (∀ z ∈ allZones, 0 ∉ stackOf (full 0x30) z ∧ waitOf (full 0x30) z = []) ∧
      4 ≤ (stackOf (full 0x30) (workingOf (full 0x30) .setpoint (bodyOf (full 0x30).xm 0)).zone).length ∧
      (stackOf (full 0x30) .cab).Nodup ∧ stackOf (full 0x30) .cab = [] ++ 3 :: [4, 5, 6] ∧
      (∀ j ∈ [4, 5, 6], slotRank (full 0x30) j ≤ slotRank (full 0x30) 3) ∧
      classRank (workingOf (full 0x30) .setpoint (bodyOf (full 0x30).xm 0)).cls < slotRank (full 0x30) 3 :=
  ⟨takes_any rfl rfl, by decide, rfl, by rfl, trivial, rfl, by decide, by decide, by decide, rfl, by decide, by decide⟩

theorem test_witness_Post_full_waits :
    postJudgment (full 0x130) (bodyOf (full 0x130).xm 0) = .ok .setpoint ∧ (slotRec (full 0x130) 0).state = .empty ∧
      ∀ j ∈ stackOf (full 0x130) .cab,
        slotRank (full 0x130) j ≤ classRank (workingOf (full 0x130) .setpoint (bodyOf (full 0x130).xm 0)).cls :=
  ⟨by rfl, by decide, by decide⟩

/-- The lists of the states above are as chapter 3 has them. -/
theorem test_witness_Post_lists :
    directiveLists (posting .active []) ∧ directiveLists (posting .parked []) ∧ directiveLists (full 0x30) :=
  ⟨directiveLists_of_hold (by decide), directiveLists_of_hold (by decide), directiveLists_of_hold (by decide)⟩

/-- PARKED at minute stamp 100, with a PENDING directive in slot 3. -/
def pendingAt (w : Working) : State :=
  withSlot 3 .pending (some w) { device .parked with cc := { CC.reset with set := true, time := 6000 } }

theorem test_witness_Starts_setpoint :
    (pendingAt work).mc.config = some cfg ∧ (pendingAt work).mc.state ≠ .active ∧
      (slotRec (pendingAt work) 3).state = .pending ∧ (slotRec (pendingAt work) 3).work = some work ∧
      nowStamp (pendingAt work) = 100 ∧ work.start = .now ∧ work.kind ≠ .procedure ∧ work.ending = .none ∧
      work.wake = true ∧ (pendingAt work).mc.state = .parked ∧
      (slotRec (pendingAt { work with ending := .at 100 }) 3).work = some { work with ending := .at 100 } ∧
      (slotRec (pendingAt { work with start := .at 101 }) 3).work = some { work with start := .at 101 } :=
  ⟨rfl, by decide, by decide, by decide, by decide, rfl, by decide, rfl, rfl, rfl, by decide, by decide⟩

theorem test_witness_Starts_others :
    (slotRec (pendingAt { work with kind := .reach, deadline := 90, holdAfter := 5 }) 3).state = .pending ∧
      (pendingAt work).cc.set = true ∧ 90 + 5 ≤ nowStamp (pendingAt work) ∧
      (slotRec (pendingAt { work with kind := .procedure }) 3).work = some { work with kind := .procedure } ∧
      (∀ hm days, ({ work with ending := .at 100 } : Working).start ≠ .daily hm days) :=
  ⟨by decide, rfl, by decide, by decide, nofun⟩

/-- ACTIVE at minute stamp 100, with a PENDING directive in slot 3. -/
def pendingActive (w : Working) : State :=
  withSlot 3 .pending (some w) { running 5 with cc := { CC.reset with set := true, time := 6000 } }

theorem test_witness_Starts_active :
    (pendingActive work).mc.config = some cfg ∧ (pendingActive work).mc.state = .active ∧
      (∀ z ∈ allZones, 3 ∉ stackOf (pendingActive work) z ∧ 3 ∉ waitOf (pendingActive work) z) ∧
      (slotRec (pendingActive work) 3).state = .pending ∧ (slotRec (pendingActive work) 3).work = some work ∧
      (pendingActive { work with kind := .procedure }).dc.run.state = .idle ∧
      (withRun .melt none (pendingActive { work with kind := .procedure })).dc.run.state ≠ .idle ∧
      (slotRec (pendingActive work) 5).state = .empty ∧ (slotRec (pendingActive work) 5).work = none := by decide

/-- ACTIVE with slot 3 PENDING, CAB's stack full and slot 8 waiting for it. -/
def fullPending (k : Machine.Class) : State :=
  withLists [4, 5, 6, 7] [8] (withSlot 4 .active (some work) (withSlot 5 .active (some work) (withSlot 6 .active (some work)
    (withSlot 7 .active (some work) (withSlot 8 .waiting (some work) (pendingActive { work with cls := k }))))))

/-- Slot 3's directive starts alone: with nobody beside it, and beside entries that do not end. -/
theorem test_witness_Starts_alone :
    startsAlone false (pendingActive work) 3 work ∧ (stackOf (pendingActive work) .cab).length < 4 ∧
      waitOf (pendingActive work) .cab = [] := by
  refine ⟨fun m q hm hq => ?_, by decide, by decide⟩
  have h : ∀ m : Slot, m ≠ 3 → (slotRec (pendingActive work) m).work = none := by decide
  rw [h m hm] at hq; cases hq

theorem test_witness_Starts_alone_full :
    startsAlone false (fullPending .a) 3 { work with cls := .a } ∧ 4 ≤ (stackOf (fullPending .a) .cab).length ∧
      (stackOf (fullPending .a) .cab).Nodup ∧ (∀ i ∈ stackOf (fullPending .a) .cab, i ∉ waitOf (fullPending .a) .cab) ∧
      (∀ z ∈ allZones, z ≠ .cab → stackOf (fullPending .a) z = [] ∧ waitOf (fullPending .a) z = []) ∧
      stackOf (fullPending .a) .cab = [] ++ 4 :: [5, 6, 7] ∧ classRank .a < slotRank (fullPending .a) 4 ∧
      (∀ j ∈ [5, 6, 7], slotRank (fullPending .a) j ≤ slotRank (fullPending .a) 4) ∧
      ∀ j ∈ stackOf (fullPending .b) .cab, slotRank (fullPending .b) j ≤ classRank .b := by
  refine ⟨fun m q hm hq _ => ⟨fun hp => ?_, fun _ => ?_⟩, by decide, by decide, by decide, by decide, rfl, by decide,
    by decide, by decide⟩
  · have h : ∀ m : Slot, m ≠ 3 → (slotRec (fullPending .a) m).state ≠ .pending := by decide
    exact absurd hp (h m hm)
  · have h : ∀ m : Slot, m ≠ 3 → ∀ q, (slotRec (fullPending .a) m).work = some q → q = work := by
      intro m hm q hq
      have g : ∀ m : Slot, m ≠ 3 → ((slotRec (fullPending .a) m).work.getD work) = work := by decide
      simpa [hq] using g m hm
    rw [h m hm q hq]
    rintro (⟨_, ⟨_, _, h, _⟩ | ⟨h, _⟩⟩ | ⟨h, _⟩) <;> cases h

theorem test_witness_Starts_lists :
    directiveLists (pendingAt work) ∧ directiveLists (pendingActive work) ∧ directiveLists (fullPending .a) ∧
      directiveLists (fullPending .b) :=
  ⟨directiveLists_of_hold (by decide), directiveLists_of_hold (by decide), directiveLists_of_hold (by decide),
    directiveLists_of_hold (by decide)⟩

/-- R47, R59: a class A newcomer stands on top of the class B entries, the top one of which waits ahead of the higher
slot that waits already. -/
theorem test_placement_order :
    let t := placeZone [3] (joinWait .cab .stackFull 3 (fullPending .a)) .cab
    stackOf t .cab = [3, 5, 6, 7] ∧ waitOf t .cab = [4, 8] := by decide

/-- R45, R48: the place that slot 5 leaves goes to slot 8, the head of the wait list, on top of its class. -/
theorem test_refill_order :
    let t := placeZone [] (endDirective .completed 5 (fullEnding .none)) .cab
    stackOf t .cab = [8, 4, 6, 7] ∧ waitOf t .cab = [] := by decide

/-- PROCEDUREs in slots 2 and 3 whose starts are met. -/
theorem test_witness_Starts_lower :
    let w := { work with kind := .procedure }
    let s := withSlot 2 .pending (some w) (pendingActive w)
    s.dc.run.state = .idle ∧ (2 : Slot) < 3 ∧ (slotRec s 2).state = .pending ∧ (slotRec s 2).work = some w ∧
      w.kind = .procedure ∧ startComes false s none w ∧ (slotRec s 3).work = some w ∧
      (∀ m : Slot, m < 3 → (slotRec (pendingActive w) m).work = none) :=
  ⟨rfl, by decide, by decide, by decide, rfl, trivial, by decide, by decide⟩

theorem test_witness_Starts_met :
    startComes false (pendingActive work) none work ∧
      startComes true (pendingActive work) none { work with start := .after 1 } ∧
      ¬ startComes true (pendingActive work) none { work with start := .after 2 } ∧
      startComes true (pendingActive work) none { work with kind := .reach, deadline := 820 } :=
  ⟨trivial, ⟨rfl, rfl⟩, fun h => absurd h.2 (by decide), ⟨rfl, by decide⟩⟩

/-- A body whose fields lie past their ranges: REPLACE for CAB with weight 0, target 1501 and half-band 101. -/
theorem test_witness_PostClamps :
    Kind.setpoint ≠ .procedure ∧ (bodied .active 0x30).mc.config = some cfg ∧ cabLimits.tmin ≤ cabLimits.tmax ∧
      postJudgment (posting .active [0x30, 0x6505DD]) (bodyOf (posting .active [0x30, 0x6505DD]).xm 0) = .ok .setpoint ∧
      (inUse .setpoint [0x30, 0x6505DD]).target = 1500 ∧ (inUse .setpoint [0x30, 0x6505DD]).halfBand = 100 ∧
      (inUse .setpoint [0x30, 0x6505DD]).weight = 1 ∧
      postJudgment (bodied .active 2) (bodyOf (bodied .active 2).xm 0) = .ok .procedure ∧
      postJudgment (posting .active [0x31, 0, 0, 0, 0, 0, 100, 241])
        (bodyOf (posting .active [0x31, 0, 0, 0, 0, 0, 100, 241]).xm 0) = .ok .reach ∧
      (inUse .reach [0x31, 0, 0, 0, 0, 0, 100, 241]).holdAfter = 240 := by
  refine ⟨by decide, rfl, by decide, ?_, ?_, ?_, ?_, ?_, ?_, ?_⟩ <;> decide

/-- 13.5: a body word's fields, written from the layout. -/
theorem test_body_layout :
    let b := bodyOf (wordsFrom 0x301 [0x138F4232, 0x000AFF9C, 0x7F2B1702, 5, 3, 7, 9, 11]) 0
    (b.kind, b.zone, b.cls, b.combine, b.weight, b.alpha) = (2, 3, 2, 4, 15, 8) ∧
      (b.wake, b.suspendable, b.procedure, b.target, b.halfBand) = (true, true, 1, -100, 10) ∧
      (b.startCode, b.hour, b.minute, b.weekdays) = (2, 23, 43, 127) ∧
      (b.startParam, b.endCode, b.endParam, b.deadline, b.holdAfter) = (5, 3, 7, 9, 11) := by decide

theorem test_witness_Amend :
    takesAny busyCab ∧ busyCab.mc.config = some cfg ∧ busyCab.mc.state ≠ .unconfigured ∧
      (slotRec busyCab 3).state = .active ∧ (slotRec busyCab 3).work = some work ∧ work.kind ≠ .procedure :=
  ⟨takes_any rfl rfl, rfl, by decide, by decide, by decide, by decide⟩

theorem test_witness_Retract_1 :
    takesAny busyCab ∧ busyCab.mc.state = .active ∧ (slotRec busyCab 3).work = some work ∧
      (slotRec busyCab 3).state = .active ∧ work.kind ≠ .procedure ∧ 3 ∈ stackOf busyCab .cab ∧
      (stackOf busyCab .cab).length ≤ 4 ∧ waitOf busyCab .cab = 4 :: [] ∧ (4 : Slot) ≠ 3 :=
  ⟨takes_any rfl rfl, rfl, by decide, by decide, by decide, by decide, by decide, rfl, by decide⟩

/-- ACTIVE with CAB's stack full and slot 8 waiting, where slot 4 is retracted. -/
theorem test_witness_Retract_active :
    (fullPending .a).mc.state = .active ∧ (slotRec (fullPending .a) 4).state = .active ∧
      (∀ z ∈ allZones, (stackOf (fullPending .a) z).Nodup ∧
        (waitOf (fullPending .a) z = [] ∨ 4 ≤ (stackOf (fullPending .a) z).length)) ∧
      (∀ y ∈ allZones, ∀ z ∈ allZones, ∀ i ∈ waitOf (fullPending .a) y, i ∉ stackOf (fullPending .a) z) ∧
      (∀ y ∈ allZones, 4 ∈ stackOf (fullPending .a) y → y = .cab) ∧ waitOf (fullPending .a) .cab = 8 :: [] := by decide

theorem test_witness_Retract_lists :
    takesAny (fullEnding .none) ∧ (fullEnding .none).mc.state = .active ∧ directiveLists (fullEnding .none) ∧
      (slotRec (fullEnding .none) 4).state = .active ∧ (slotRec (fullEnding .none) 4).work = some work ∧
      4 ∈ stackOf (fullEnding .none) .cab ∧ waitOf (fullEnding .none) .cab = 8 :: [] :=
  ⟨takes_any rfl rfl, rfl, lists_fullEnding, by decide, by decide, by decide, rfl⟩

/-- A PROCEDURE in slot 7 whose run is in MELT. -/
def procedure : State :=
  withRun .melt (some (.slot 7)) (withSlot 7 .active (some { work with kind := .procedure }) (running 5))

theorem test_witness_Retract_2 :
    takesAny procedure ∧ (slotRec procedure 7).work = some { work with kind := .procedure } ∧
      (slotRec procedure 7).state = .active ∧ procedure.dc.run.origin = some (.slot 7) ∧
      procedure.dc.run.state ≠ .idle ∧ procedure.dc.run.aborted = none :=
  ⟨takes_any rfl rfl, by decide, by decide, rfl, by decide, rfl⟩

theorem test_witness_Release :
    takesAny (withSlot 3 .ended none (device .parked)) ∧
      (withSlot 3 .ended none (device .parked)).mc.state ≠ .unconfigured ∧
      (slotRec (withSlot 3 .ended none (device .parked)) 3).state = .ended := ⟨takes_any rfl rfl, by decide, by decide⟩

theorem test_witness_SecondRollover_divider : 32768000 ≤ ({ CC.reset with divider := 32768000 } : CC).divider ∧
    State.reset.cc.divider < 32768000 := by decide

theorem test_witness_SecondRollover :
    ({ clockBlock with cc := { CC.reset with time := 3155759998 } } : State).cc.time + 1 < 3155760000 ∧
      3155760000 ≤ ({ clockBlock with cc := { CC.reset with time := 3155759999 } } : State).cc.time + 1 ∧
      windows.cc.rewrite ≠ none := by decide

/-- A due SETPOINT in slot 3 whose AT end is the present stamp. -/
def atEnd : State :=
  withSlot 3 .active (some { work with ending := .at 100 })
    { running 5 with cc := { CC.reset with set := true, time := 6000 } }

theorem test_witness_ReachedAtEnd :
    (slotRec atEnd 3).state = .active ∧ (slotRec atEnd 3).work = some { work with ending := .at 100 } ∧
      (∀ hm days, ({ work with ending := .at 100 } : Working).start ≠ .daily hm days) ∧ atEnd.cc.set = true ∧
      100 ≤ nowStamp atEnd := ⟨by decide, by decide, nofun, rfl, by decide⟩

/-- ACTIVE at minute stamp 100, with an ACTIVE directive in slot 3 that became due today. -/
def dueAt (w : Working) : State :=
  slotChanged 3 { SlotRec.empty with state := .active, due := some 90, work := some w }
    { running 5 with cc := { CC.reset with set := true, time := 6000 } }

theorem test_witness_Ends_duration :
    (slotRec (dueAt { work with ending := .duration 1 }) 3).work = some { work with ending := .duration 1 } ∧
      work.kind = .setpoint ∧ work.durationCount + 1 = 1 ∧ work.durationCount + 1 ≠ 2 ∧
      (∀ hm days, work.start ≠ .daily hm days) := ⟨by decide, rfl, rfl, by decide, nofun⟩

theorem test_witness_Ends_reach :
    let w := { work with kind := .reach, deadline := 100, holdAfter := 0 }
    (slotRec (dueAt w) 3).work = some w ∧ w.kind = .reach ∧ w.combine = .replace ∧ (dueAt w).cc.set = true ∧
      100 ≤ nowStamp (dueAt w) ∧ nowStamp (dueAt w) < 100 + 1 ∧
      (slotRec { dueAt w with cc := CC.reset } 3).work = some w ∧ CC.reset.set = false :=
  ⟨by decide, rfl, rfl, rfl, by decide, by decide, by decide, rfl⟩

theorem test_witness_Ends_daily :
    let w := { work with start := .daily 90 127, ending := .at 100 }
    (slotRec (dueAt w) 3).state = .active ∧ (slotRec (dueAt w) 3).work = some w ∧ w.retracted = false ∧
      100 ≤ nowStamp (dueAt w) ∧ (slotRec (dueAt w) 3).due.map (· / 1440) = some (nowDate (dueAt w)) :=
  ⟨by decide, by decide, rfl, by decide, by decide⟩

theorem test_witness_Ends_settled :
    let w := { work with ending := .settled 1 }
    let s : State := { dueAt w with be := { (dueAt w).be with inFlight := some (computePass (dueAt w) cfg) } }
    s.mc.state = .active ∧ s.mc.config = some cfg ∧ s.be.inFlight = some (computePass (dueAt w) cfg) ∧
      (slotRec s 3).state = .active ∧ (slotRec s 3).work = some w ∧ w.settledCount + 1 = 1 ∧
      (∀ hm days, w.start ≠ .daily hm days) ∧ ∀ z ∈ allZones, 3 ∉ waitOf s z :=
  ⟨rfl, rfl, rfl, by decide, by decide, rfl, nofun, by decide⟩

/-- Ends that lie ahead, or that no evaluation takes. -/
theorem test_witness_Ends_ahead :
    (slotRec (dueAt { work with ending := .at 101 }) 3).work = some { work with ending := .at 101 } ∧
      (dueAt work).cc.time / 60 < 101 ∧
      (slotRec (dueAt { work with kind := .reach, deadline := 101 }) 3).work =
        some { work with kind := .reach, deadline := 101 } ∧
      (slotRec (dueAt work) 3).work = some work ∧ work.ending = .none ∧ work.kind ≠ .reach ∧
      (slotRec (dueAt { work with ending := .settled 1 }) 3).work = some { work with ending := .settled 1 } := by decide

/-- A DAILY run of 03:20 that became due yesterday, whose AT end is the present stamp, 01:40. -/
theorem test_witness_Ends_daily_earlier :
    let w := { work with start := .daily 200 127, ending := .at 1540 }
    let s := slotChanged 3 { SlotRec.empty with state := .active, due := some 200, placed := true, work := some w }
      { running 5 with cc := { CC.reset with set := true, time := 1540 * 60 } }
    (slotRec s 3).state = .active ∧ (slotRec s 3).work = some w ∧ w.retracted = false ∧ s.cc.set = true ∧
      1540 ≤ s.cc.time / 60 ∧ (slotRec s 3).due.map (· / 1440) = some 0 ∧ nowDate s = 1 ∧
      ¬ startComes true s ((slotRec s 3).due.map (· / 1440)) w := by
  refine ⟨by decide, by decide, rfl, rfl, by decide, by decide, by decide, fun h => ?_⟩
  exact absurd h.2.2.2.1 (by decide)

/-- A DAILY SETPOINT whose SETTLED end is reached by a measurement inside its band. -/
theorem test_witness_Ends_daily_settled :
    let w := { work with start := .daily 90 127, ending := .settled 1 }
    let u : State := { dueAt w with mu := { MU.reset with channels := vset MU.reset.channels 0 ⟨some 210, 0, false, .online⟩ } }
    let s : State := { u with be := { u.be with inFlight := some (computePass u cfg) } }
    s.mc.state = .active ∧ s.mc.config = some cfg ∧ s.be.inFlight = some (computePass u cfg) ∧
      (slotRec s 3).state = .active ∧ (slotRec s 3).work = some w ∧ (∀ z ∈ allZones, 3 ∉ waitOf s z) ∧
      w.retracted = false ∧ s.dc.run.origin ≠ some (.slot 3) ∧ w.settledCount + 1 = 1 ∧
      liesInOwnBand w (zget (computePass u cfg).zones w.zone).meas := by
  refine ⟨rfl, rfl, rfl, by decide, by decide, by decide, rfl, by decide, rfl, 210, by decide, ?_⟩
  exact (by decide : (200 : Int) ≤ 210 ∧ (210 : Int) ≤ 220)

/-- Slot 4's AT end is reached and slot 8 takes its place. -/
theorem test_witness_Ends_refill :
    directiveLists (fullEnding (.at 100)) ∧ (fullEnding (.at 100)).mc.state = .active ∧
      noneBecomesDue false (fullEnding (.at 100)) .cab ∧ [5, 6, 7].Sublist (stackOf (fullEnding (.at 100)) .cab) ∧
      (∀ i, i ∈ ([5, 6, 7] : List Slot) ↔ i ∈ stackOf (fullEnding (.at 100)) .cab ∧
        ∀ q, (slotRec (fullEnding (.at 100)) i).work = some q → ¬ endComes false (fullEnding (.at 100)) q) := by
  have start : ∀ i : Slot, (slotRec (fullEnding (.at 100)) i).state ≠ .pending ∧
      ((slotRec (fullEnding (.at 100)) i).work.getD work).start = .now := by decide
  have ends : ∀ i : Slot, i = 4 ∨ ((slotRec (fullEnding (.at 100)) i).work.getD work) = work := by decide
  refine ⟨directiveLists_of_hold (by decide), rfl, fun m q hq _ _ => ⟨fun h => absurd h (start m).1, fun _ hm days _ h => ?_⟩,
    by decide, fun i => ⟨fun hi => ⟨?_, fun q hq => ?_⟩, fun ⟨hi, h⟩ => ?_⟩⟩
  · have e := (start m).2
    rw [hq, Option.getD_some, h] at e; cases e
  · revert hi; revert i; decide
  · rcases ends i with rfl | e
    · exact absurd hi (by decide)
    · rw [hq, Option.getD_some] at e; subst e
      rintro (⟨_, ⟨_, _, h, _⟩ | ⟨h, _⟩⟩ | ⟨h, _⟩) <;> cases h
  · by_cases e : i = 4
    · subst e
      exact absurd (.inl ⟨rfl, .inl ⟨rfl, 100, rfl, by decide⟩⟩) (h { work with ending := .at 100 } (by decide))
    · exact (by decide : ∀ i ∈ ([4, 5, 6, 7] : List Slot), i ≠ 4 → i ∈ ([5, 6, 7] : List Slot)) i hi e

/-- Slot 4's SETTLED end is reached at the completion of a pass and slot 8 takes its place. -/
theorem test_witness_Ends_settled_refill :
    let u : State := { fullEnding (.settled 1) with
      mu := { MU.reset with channels := vset MU.reset.channels 0 ⟨some 210, 0, false, .online⟩ } }
    let s : State := { u with be := { u.be with inFlight := some (computePass u cfg) } }
    directiveLists s ∧ s.mc.state = .active ∧ s.mc.config = some cfg ∧
      s.be.inFlight = some (computePass u cfg) ∧ stackOf s .cab = [4, 5, 6, 7] ∧ waitOf s .cab = [8] ∧
      (slotRec s 4).work = some { work with ending := .settled 1 } ∧
      settles (computePass u cfg) { work with ending := .settled 1 } ∧ ¬ settles (computePass u cfg) work := by
  refine ⟨directiveLists_of_hold (by decide), rfl, rfl, rfl, rfl, rfl, by decide, ?_, ?_⟩
  · exact ⟨rfl, 1, rfl, .inl ⟨⟨210, by decide, (by decide : (200 : Int) ≤ 210 ∧ (210 : Int) ≤ 220)⟩, rfl⟩⟩
  · rintro ⟨-, k, h, -⟩; cases h

/-- A directive that waits and carries WAKE. -/
def waking : State :=
  withLists [] [4] (withSlot 4 .waiting (some work)
    { device .parked with mc := { (device .parked).mc with wake := true, wakeTimer := some 0 } })

theorem test_witness_WakeTimeout :
    waking.mc.wakeTimer = some 0 ∧ (slotRec waking 4).state = .waiting ∧ (slotRec waking 4).reason = some .parked ∧
      (∃ w, (slotRec waking 4).work = some w ∧ w.wake = true) ∧ State.reset.mc.wakeTimer ≠ some 0 :=
  ⟨rfl, by decide, by decide, ⟨work, by decide, rfl⟩, by decide⟩

theorem test_witness_Commit :
    takesAny (device .parked) ∧ (device .parked).mc.state ≠ .active ∧ takesAny (running 499) ∧
      (running 499).mc.state = .active ∧ (running 499).be.lock ≠ .off ∧ (running 499).be.timer = some 499 ∧
      (running 499).mc.config = some cfg ∧ 499 < cfg.period / 2 ∧ (running 500).be.timer = some 500 ∧
      cfg.period / 2 ≤ 500 :=
  ⟨takes_device _, by decide, takes_running _, rfl, by decide, rfl, rfl, by decide, rfl, by decide⟩

/-- A current copy of an age. -/
def granted (age : Option Nat) : State :=
  { running 5 with mu := { MU.reset with copy := ⟨8000, ⟨0, 0, 0, 0, 0⟩, true⟩, commitAge := age } }

theorem test_witness_GrantTimeout :
    (granted none).mc.config = some cfg ∧ (granted none).mu.copy.current = true ∧
      (granted (some 5000)).mu.commitAge = some 5000 ∧ cfg.grantTimeout * 1000 ≤ 5000 ∧ 4999 < cfg.grantTimeout * 1000 ∧
      State.reset.mc.config = none := ⟨rfl, rfl, rfl, by decide, by decide, rfl⟩

theorem test_witness_PeriodExpiry_active :
    (running 1500).mc.state = .active ∧ (running 1500).mc.config = some cfg ∧ (running 1500).be.timer = some 1500 ∧
      (running 1500).be.lock = .locked ∧ 3 * cfg.period / 2 ≤ 1500 ∧ (linked .active .due 0).be.lock ≠ .locked ∧
      (linked .active .due 0).flc.work = .due ∧ exchangeInFlight (linked .active .window 0).flc.work = true ∧
      (linked .active .window 0).flc.after = .go ∧ (linked .active .brk 0).flc.work = .brk :=
  ⟨rfl, rfl, rfl, rfl, by decide, by decide, rfl, by decide, rfl, rfl⟩

theorem test_witness_PeriodExpiry_others :
    (device .parked).be.timer = none ∧ (device .parked).mc.config = some cfg ∧
      (running 1499).be.timer = some 1499 ∧ 1499 < 3 * cfg.period / 2 ∧ (linked .starting .due 0).be.timer = some 1000 ∧
      cfg.period ≤ 1000 ∧ (linked .starting .due 0).mc.state = .starting ∧
      (linked .quiescing .due 0).mc.state = .quiescing ∧ (linked .parking .due 0).mc.state = .parking ∧
      (linked .parking .due 0).mc.config = some cfg ∧ (linked .parking .due 0).flc.work ≠ .waiting :=
  ⟨rfl, rfl, rfl, by decide, rfl, by decide, rfl, rfl, rfl, rfl, by decide⟩

/-- PARKING with the link waiting and no exchange to make. -/
def emptyParking (acts : Vector ActCfg 12) : State :=
  { linked .parking .waiting 0 with
    mc := { MC.reset with
      state := .parking, config := some { cfg with nodes := Vector.replicate 30 ⟨false, none, 0⟩, acts := acts } } }

/-- Actuators that are not enabled. -/
def noActs : Vector ActCfg 12 := vmap cfg.acts fun _ a => { a with enable := false }

theorem test_witness_PeriodExpiry_empty :
    (emptyParking noActs).mc.state = .parking ∧ (emptyParking noActs).flc.work = .waiting ∧
      exchangeList (emptyParking noActs) = [] ∧ (emptyParking noActs).dc.run.state = .idle ∧
      (∀ i, (noActs.get i).enable = false) ∧ exchangeList (emptyParking cfg.acts) = [] ∧ (cfg.acts.get 0).enable = true ∧
      ((emptyParking cfg.acts).au.acts.get 0).carried = none ∧
      (linked .parking .waiting 1).flc.work = .waiting ∧ exchangeList (linked .parking .waiting 1) ≠ [] :=
  ⟨rfl, rfl, by decide, rfl, by decide, by decide, by decide, by decide, rfl, by decide⟩

theorem test_witness_PeriodExpiry_zones :
    (zget (running 1500).pu.zones .cab).limits = some cabLimits ∧ (running 1500).flc.work = .waiting ∧
      (linked .active .preamble 0).flc.work = .preamble ∧ CauseFlag.slotEnd ≠ .advisory ∧ CauseFlag.slotEnd ≠ .fault :=
  ⟨rfl, rfl, rfl, by decide, by decide⟩

/-- ACTIVE with a pass in flight. -/
def passing : State := { running 5 with be := { (running 5).be with inFlight := some (computePass (running 5) cfg) } }

theorem test_witness_PassCompletion :
    passing.mc.state = .active ∧ passing.mc.config = some cfg ∧
      passing.be.inFlight = some (computePass (running 5) cfg) ∧ cfg.divisor ≤ passing.pi.divisorCount + 1 ∧
      passing.pi.divisorCount + 1 < ({ cfg with divisor := 2 } : Cfg).divisor ∧ passing.flc.work = .waiting ∧ exchangeList passing ≠ [] ∧
      exchangeInFlight (linked .active .window 0).flc.work = true ∧ (cfg.acts.get 0).enable = true ∧
      (cfg.acts.get 0).min ≤ (cfg.acts.get 0).max ∧ (passing.au.acts.get 0).command = some 400 ∧
      (cfg.acts.get 11).enable = false ∧ State.reset.be.inFlight = none :=
  ⟨rfl, rfl, rfl, by decide, by decide, rfl, by decide, by decide, by decide, by decide, by decide, by decide, rfl⟩

/-- ACTIVE with a pass in flight, a link work and no exchange to make. -/
def passingEmpty (w : LinkWork) : State :=
  { emptyParking cfg.acts with
    mc := { (emptyParking cfg.acts).mc with state := .active }
    flc := { FLC.reset with work := w }
    be := { BE.reset with inFlight := some (computePass (running 5) cfg) } }

theorem test_witness_PassCompletion_link :
    (passingEmpty .waiting).mc.state = .active ∧ (passingEmpty .waiting).flc.work = .waiting ∧
      exchangeList (passingEmpty .waiting) = [] ∧ (passingEmpty .brk).flc.work ≠ .waiting ∧
      (passingEmpty .waiting).be.inFlight.isSome = true := ⟨rfl, rfl, by decide, by decide, rfl⟩

theorem test_witness_PassCompletion_loads :
    ({ cfg.acts.get 0 with source := some .zoneAny, zones := [.cab, .berth] } : ActCfg).zones ≠ [] ∧
      ({ cfg.acts.get 0 with source := some .zoneHeat, zones := [.cab] } : ActCfg).zones = [.cab] ∧
      0 ≤ (zget cfg.zones .cab).hmax ∧ 0 ≤ (zget cfg.zones .cab).cmax ∧ 0 ≤ (zget cfg.zones .berth).hmax ∧
      0 ≤ (zget cfg.zones .berth).cmax := by decide

theorem test_witness_LineFilter :
    State.reset.resetHeld = false ∧ false = (lget State.reset.mu.filters .clvl).accepted ∧
      true ≠ (lget State.reset.mu.filters .clvl).accepted ∧ (lget State.reset.mu.filters .clvl).run + 1 ≤ 15 ∧
      15 < (lget ({ State.reset with mu := { MU.reset with filters := ⟨⟨true, 15⟩, ⟨false, 15⟩, ⟨false, 0⟩⟩ } } : State).mu.filters
        .hvok).run + 1 := by decide

theorem test_witness_LineFilter_run :
    (withRun .melt none (running 5)).resetHeld = false ∧ (withRun .melt none (running 5)).dc.run.state ≠ .idle ∧
      (withRun .melt none (running 5)).dc.run.state ≠ .restore ∧ (running 5).dc.run.state = .idle ∧
      (withRun .melt none (running 5)).mc.config = some cfg ∧
      lget ({ MU.reset with filters := ⟨⟨true, 15⟩, ⟨false, 0⟩, ⟨false, 0⟩⟩ } : MU).filters .hvok = ⟨true, 15⟩ ∧
      lget cfg.filterCount .hvok < 15 + 1 := by decide

theorem test_witness_RequestStart :
    (linked .active .due 1).mc.config = some cfg ∧ (linked .active .due 1).flc.work = .due ∧
      currentExchange (linked .active .due 1) = some ⟨0, true⟩ ∧
      currentExchange (linked .active .due 0) = some ⟨0, false⟩ ∧ State.reset.flc.work ≠ .due :=
  ⟨rfl, rfl, by decide, by decide, by decide⟩

theorem test_witness_RequestStart_outputs :
    (cfg.acts.get 0).enable = true ∧ (cfg.acts.get 0).node = 1 ∧ (cfg.acts.get 0).output = 0 ∧
      outputCount cfg 1 ≠ 0 ∧ (∀ j : Fin 12, 0 ≤ j) ∧
      (∀ i : Fin 12, ¬ ((cfg.acts.get i).enable = true ∧ (cfg.acts.get i).node = 1 ∧ (cfg.acts.get i).output = 1)) ∧
      255 < 256 ∧ (7 : Nat) < 8 := by decide

theorem test_witness_LineEvents_1 :
    (linked .active (.sending []) 0).flc.work = .sending [] ∧ (linked .active .window 0).flc.work = .window ∧
      (linked .active (.gap [1]) 0).flc.work = .gap [1] ∧
      (linked .active (.failed .check 2) 0).flc.work = .failed .check 2 ∧
      (∀ chars, State.reset.flc.work ≠ .sending chars) ∧ (linked .active .brk 0).flc.work = .brk :=
  ⟨rfl, rfl, rfl, rfl, nofun, rfl⟩

theorem test_witness_LineEvents_2 :
    (linked .active .preamble 0).flc.work = .preamble ∧ (linked .active .preamble 0).flc.after ≠ .brk ∧
      (linked .active .preamble 0).be.inFlight = none ∧ exchangeList (linked .active .preamble 0) ≠ [] ∧
      State.reset.flc.work ≠ .preamble := ⟨rfl, by decide, rfl, by decide, by decide⟩

/-- A preamble with a pass in flight; and one after which a break is due. -/
def preamblePass : State := { passing with flc := { passing.flc with work := .preamble } }

def preambleBreak : State := { passing with flc := { passing.flc with work := .preamble, after := .brk } }

theorem test_witness_LineEvents_3 :
    preamblePass.flc.work = .preamble ∧ preamblePass.flc.after ≠ .brk ∧ preamblePass.mc.state = .active ∧
      preamblePass.be.inFlight.isSome = true ∧ preambleBreak.flc.work = .preamble ∧ preambleBreak.flc.after = .brk ∧
      ([character true 1, character false 0x21] : List (BitVec 11))[11 / 11]? = some (character false 0x21) ∧
      LinkWork.window ≠ .brk ∧ (∀ chars, LinkWork.window ≠ .sending chars) :=
  ⟨rfl, by decide, rfl, rfl, rfl, rfl, rfl, by decide, nofun⟩

theorem test_witness_ReplyCharacters :
    (linked .active (.char []) 0).flc.work = .char [] ∧ currentExchange (linked .active (.char []) 0) = some ⟨0, false⟩ ∧
      entryAddress (linked .active (.char []) 0) 0 = 1 ∧ (1 : Byte).toNat = 1 ∧ (9 : Byte).toNat ≠ 1 ∧
      ([1, 0] : List Byte).length = 2 ∧ (8 : Byte).toNat ∈ [0, 2, 4, 6, 8] :=
  ⟨rfl, by decide, by decide, by decide, by decide, rfl, by decide⟩

theorem test_witness_ReplyCharacters_phases :
    (linked .active .window 0).flc.work = .window ∧ currentExchange (linked .active .window 0) = some ⟨0, false⟩ ∧
      (linked .active (.gap [1, 0]) 1).flc.work = .gap [1, 0] ∧
      currentExchange (linked .active (.gap [1, 0]) 1) = some ⟨0, true⟩ ∧ (9 : Byte).toNat = 9 ∧
      (linked .active (.failed .check 2) 0).flc.work = .failed .check 2 ∧
      (linked .active (.sending []) 0).flc.work = .sending [] ∧
      (∀ j < 8, 8 - 3 ≤ j → (0xE0 : Byte).getLsbD j = true) ∧ (0xE0 : Byte).getLsbD (7 - 3) = false ∧
      (∀ j < 8, 8 - 8 ≤ j → (0xFF : Byte).getLsbD j = true) :=
  ⟨rfl, by decide, rfl, by decide, by decide, rfl, rfl, by decide, by decide, by decide⟩

theorem test_witness_ReplyCharacters_check :
    (0 : Byte).toNat ≤ ([] : List Byte).length ∧ (0 + 0 + 0 + (0 : Byte).toNat) % 256 = 0 ∧
      (0 + 0 + 0 + (1 : Byte).toNat) % 256 ≠ 0 ∧ ((3 : Byte).toNat + 0 + 0 + (253 : Byte).toNat) % 256 = 0 := by decide

/-- What follows the link work replaced; and a round's record. -/
def thenWork (a : AfterWork) (s : State) : State := { s with flc := { s.flc with after := a } }

def heard (s : State) : State := { s with flc := { s.flc with round := vset s.flc.round 0 true } }

theorem test_witness_Exchanges :
    (linked .active .window 0).mc.config = some cfg ∧ currentExchange (linked .active .window 0) = some ⟨0, false⟩ ∧
      endsExchange .replyWindowExpiry (linked .active .window 0) (.error .noReply) ∧
      endsExchange .lineIdle (linked .active (.failed .check 2) 0) (.error .check) ∧
      endsExchange .errorBound (linked .active (.failed .check 2) 0) (.error .check) ∧
      endsExchange (.replyCharacter 246 false true) (linked .active (.char [1, 0, 2, 7, 1]) 0) (.ok [7, 1]) ∧
      endsExchange (.replyCharacter 246 false true) (linked .active (.gap [1, 0, 2, 7, 1]) 0) (.ok [7, 1]) :=
  ⟨rfl, by decide, .inl ⟨rfl, rfl, rfl⟩, .inr (.inl ⟨.inl rfl, .check, 2, rfl, rfl⟩),
    .inr (.inl ⟨.inr rfl, .check, 2, rfl, rfl⟩),
    .inr (.inr ⟨1, 2, 246, [7, 1], rfl, .inl rfl, rfl, by decide, rfl⟩),
    .inr (.inr ⟨1, 2, 246, [7, 1], rfl, .inr rfl, rfl, by decide, rfl⟩)⟩

/-- A DRIVE exchange of the last of the list, in flight before its reply ends; its reply is late, or good and over. -/
theorem test_witness_Exchanges_drive :
    currentExchange (linked .active .window 1) = some ⟨0, true⟩ ∧ (cfg.acts.get 0).enable = true ∧
      (cfg.acts.get 0).node = (cfg.nodes.get 0).address ∧ (cfg.acts.get 0).output ≤ 3 ∧ (cfg.acts.get 11).enable = false ∧
      endsExchange (.replyCharacter 246 false true) (linked .active (.char [1, 0, 9, 0, 0, 0, 0, 0, 0, 0, 0, 1]) 1)
        (.ok [0, 0, 0, 0, 0, 0, 0, 0, 1]) ∧ ([0, 0, 0, 0, 0, 0, 0, 0, 1] : List Byte).length = 9 ∧
      ((linked .active .window 1).au.acts.get 0).latch = none ∧
      ((handResults ⟨0, true⟩ (.ok [0, 0, 0, 0, 0, 0, 0, 0, 1]) (linked .active .window 1)).au.acts.get 0).latch =
        some .stall :=
  ⟨by decide, by decide, by decide, by decide, by decide,
    .inr (.inr ⟨1, 9, 246, [0, 0, 0, 0, 0, 0, 0, 0, 1], rfl, .inl rfl, rfl, by decide, rfl⟩), rfl, by decide, by decide⟩

theorem test_witness_Exchanges_link :
    (linked .active .window 0).flc.after = .go ∧ (linked .active .window 0).flc.cursor = 0 ∧
      (exchangeList (linked .active .window 0)).length = 2 ∧
      (thenWork .brk (linked .active .window 0)).flc.after = .brk ∧
      (thenWork .first (linked .quiescing .window 0)).flc.after = .first ∧
      (thenWork .cut (linked .active .window 0)).flc.after = .cut ∧
      (thenWork .cutResume (linked .active .window 1)).flc.after = .cutResume ∧
      (linked .active .window 1).flc.cursor + 1 = 2 ∧ (linked .active .window 1).mc.state = .active ∧
      (∀ y ∈ exchangeList (linked .active .window 1), (linked .active .window 1).flc.round.get y.entry = false) ∧
      ¬ (∀ y ∈ exchangeList (linked .active .window 1), (heard (linked .active .window 1)).flc.round.get y.entry = false) :=
  ⟨rfl, rfl, by decide, rfl, rfl, rfl, rfl, rfl, rfl, by decide, by decide⟩

theorem test_witness_Exchanges_channels :
    (cfg.channels.get 1).enable = false ∧ (cfg.channels.get 0).enable = true ∧
      (cfg.channels.get 0).node = (cfg.nodes.get 0).address ∧ (cfg.channels.get 0).index ≤ 3 ∧
      (linked .starting .window 0).mc.state ≠ .active ∧ (linked .active .window 0).mc.state = .active ∧
      zget (linked .active .window 0).mu.degraded .cab = false ∧
      (linked .active (.failed .check 2) 0).flc.work = .failed .check 2 ∧
      currentExchange (linked .active .window 1) = some ⟨0, true⟩ := by decide

/-- A channel record with a value, of an age. -/
def valued (age : Nat) (n : NodeState) : ChannelRec := ⟨some 210, age, false, n⟩

theorem test_witness_Exchanges_states :
    (ChannelRec.value ⟨none, 0, false, .unknown⟩ = none) ∧ (valued 0 .failed).value ≠ none ∧
      (valued 0 .failed).node = .failed ∧ 3 < (valued 4 .online).age ∧ (valued 3 .online).node ≠ .failed ∧
      (valued 3 .online).age ≤ 3 := by decide

theorem test_witness_Exchanges_measurement :
    let s : State := { running 5 with mu := { MU.reset with channels := vset MU.reset.channels 0 (valued 0 .online) } }
    s.mc.config = some cfg ∧ (zget cfg.zones .cab).channels.filterMap (channelValue s) ≠ [] ∧
      (zget cfg.zones .cab).channels.filterMap (channelValue (running 5)) = [] ∧
      (zget cfg.zones .cab).agg = some .max := by
  refine ⟨rfl, ?_, ?_, ?_⟩ <;> decide

theorem test_witness_StartingSweep :
    (linked .starting .window 1).mc.state = .starting ∧ (linked .starting .window 1).mc.config = some cfg ∧
      currentExchange (linked .starting .window 1) = some ⟨0, true⟩ ∧ (linked .starting .window 1).flc.after = .go ∧
      endsExchange .replyWindowExpiry (linked .starting .window 1) (.error .noReply) ∧
      (linked .starting .window 1).flc.cursor + 1 = (exchangeList (linked .starting .window 1)).length :=
  ⟨rfl, rfl, by decide, rfl, .inl ⟨rfl, rfl, rfl⟩, by decide⟩

theorem test_witness_StartingSweep_lost :
    zget (linked .starting .window 1).mu.degraded .cab = false ∧ measurement (linked .starting .window 1) .cab = none := by
  decide

/-- A preamble over an empty exchange list, in a device state; with the enabled actuators' rest values carried or not. -/
def emptyPreamble (d : DeviceState) (acts : Vector ActCfg 12) : State :=
  { emptyParking acts with
    mc := { (emptyParking acts).mc with state := d }
    flc := { FLC.reset with work := .preamble } }

theorem test_witness_StartingSweep_empty :
    (emptyPreamble .starting noActs).flc.work = .preamble ∧ (emptyPreamble .starting noActs).flc.after ≠ .brk ∧
      (emptyPreamble .starting noActs).mc.config.isSome = true ∧ exchangeList (emptyPreamble .starting noActs) = [] ∧
      (emptyPreamble .active noActs).be.inFlight = none ∧ (emptyPreamble .parking noActs).dc.run.state = .idle ∧
      (∀ a, (noActs.get a).enable = false) ∧ (cfg.acts.get 0).enable = true ∧
      ((emptyPreamble .parking cfg.acts).au.acts.get 0).carried = none ∧
      (emptyPreamble .quiescing noActs).mc.state = .quiescing := by decide

/-- PARKING at its last exchange, with every enabled actuator's rest value carried in a sweep from the first. -/
def resting : State :=
  { linked .parking .window 1 with
    flc := { (linked .parking .window 1).flc with fromFirst := true }
    au := { AU.reset with acts := vset AU.reset.acts 0 { ActRec.reset with carried := some (cfg.acts.get 0).rest } } }

theorem test_witness_ParkingSweep :
    resting.mc.state = .parking ∧ resting.mc.config = some cfg ∧ currentExchange resting = some ⟨0, true⟩ ∧
      endsExchange .replyWindowExpiry resting (.error .noReply) ∧ resting.flc.after ≠ .brk ∧ resting.flc.after ≠ .first ∧
      resting.flc.cursor + 1 = (exchangeList resting).length ∧ resting.flc.fromFirst = true ∧
      resting.dc.run.state = .idle ∧
      (∀ a, (cfg.acts.get a).enable = true → (resting.au.acts.get a).carried = some (cfg.acts.get a).rest) ∧
      (linked .parking .window 1).flc.fromFirst = false ∧
      (linked .quiescing .window 1).mc.state = .quiescing ∧ (linked .quiescing .window 1).flc.after = .go :=
  ⟨rfl, rfl, by decide, .inl ⟨rfl, rfl, rfl⟩, by decide, by decide, by decide, rfl, rfl, by decide, rfl, rfl, rfl⟩

/-- STARTING at its last exchange, with five directives that wait for CAB. -/
def fiveWait : State :=
  withLists [] [3, 4, 5, 6, 7] (withSlot 3 .waiting (some work) (withSlot 4 .waiting (some work)
    (withSlot 5 .waiting (some work) (withSlot 6 .waiting (some work) (withSlot 7 .waiting (some work)
      (linked .starting .window 1))))))

theorem test_witness_StartingSweep_placement :
    fiveWait.mc.state = .starting ∧ currentExchange fiveWait = some ⟨0, true⟩ ∧
      fiveWait.flc.cursor + 1 = (exchangeList fiveWait).length ∧
      (∀ z ∈ allZones, stackOf fiveWait z = [] ∧ (waitOf fiveWait z).Nodup) ∧
      (∀ y ∈ allZones, ∀ z ∈ allZones, ∀ i, i ∈ waitOf fiveWait y → i ∈ waitOf fiveWait z → y = z) ∧
      (∀ i, (slotRec fiveWait i).state = .waiting ↔ ∃ z ∈ allZones, i ∈ waitOf fiveWait z) := by
  refine ⟨rfl, ?_, ?_, ?_, ?_, ?_⟩ <;> decide

theorem test_witness_DefrostExpiries :
    (withRun .prepare none (running 5)).dc.run.state = .prepare ∧
      (withRun .prepare none (running 5)).dc.run.pendingSuspend = false ∧
      (withRun .prepare none (running 5)).dc.run.remembered ≠ some .drip ∧
      evaporatorClear (withRun .prepare none (running 5)) = false ∧
      (withRun .prepare none (running 5)).dc.run.meltTime < meltLimit (withRun .prepare none (running 5)) ∧
      (withRun .melt none (running 5)).dc.run.state = .melt ∧ (withRun .drip none (running 5)).dc.run.state = .drip ∧
      (withRun .suspended none (running 5)).dc.run.state = .suspended := by decide

/-- A run with a pending suspend, after a number of suspensions. -/
def suspending (n : Nat) (r : Option RememberedPhase) (s : State) : State :=
  { s with dc := { s.dc with run := { s.dc.run with
      suspendable := true, pendingSuspend := true, suspendCount := n, remembered := r } } }

theorem test_witness_DefrostExpiries_prepare :
    let s := suspending 2 (some .drip) (withRun .prepare (some (.slot 7)) (running 5))
    let u := suspending 3 none (withRun .prepare none (running 5))
    s.dc.run.state = .prepare ∧ s.dc.run.pendingSuspend = true ∧ s.dc.run.suspendCount < 3 ∧
      s.dc.run.suspendedTime < suspendLimit s ∧ s.dc.run.remembered = some .drip ∧ u.dc.run.pendingSuspend = true ∧
      3 ≤ u.dc.run.suspendCount ∧ evaporatorClear u = false ∧ u.dc.run.meltTime < meltLimit u := by decide

/-- ACTIVE with a pass in flight that chills for class P, and a run. -/
def chilling (r : RunState) : State :=
  suspending 2 none (withRun r (some (.slot 7))
    { passing with be := { passing.be with inFlight := some { computePass (running 5) cfg with chillP := true } } })

theorem test_witness_DefrostExpiries_completion :
    (chilling .melt).mc.state = .active ∧ (chilling .melt).mc.config = some cfg ∧
      (chilling .melt).be.inFlight = some { computePass (running 5) cfg with chillP := true } ∧
      (chilling .melt).dc.run.suspendable = true ∧ (chilling .melt).dc.run.state = .melt ∧
      (chilling .melt).dc.run.suspendCount < 3 ∧
      (chilling .melt).dc.run.suspendedTime < cfg.plant.suspendMax * 60000 ∧
      (chilling .melt).dc.run.origin = some (.slot 7) ∧ (chilling .prepare).dc.run.state = .prepare ∧
      (chilling .suspended).dc.run.state = .suspended ∧ (chilling .restore).dc.run.state = .restore ∧
      passing.dc.run.state = .idle ∧ passing.dc.run.suspendable = false :=
  ⟨rfl, rfl, rfl, rfl, rfl, by decide, by decide, rfl, rfl, rfl, rfl, rfl, rfl⟩

theorem test_witness_DefrostExpiries_post :
    takesAny (bodied .active 2) ∧ (slotRec (bodied .active 2) 0).state = .empty ∧
      (bodied .active 2).mc.state = .active ∧
      postJudgment (bodied .active 2) (bodyOf (bodied .active 2).xm 0) = .ok .procedure ∧
      startComes false (bodied .active 2) none (workingOf (bodied .active 2) .procedure (bodyOf (bodied .active 2).xm 0)) ∧
      (∀ z ∈ allZones, 0 ∉ stackOf (bodied .active 2) z ∧ waitOf (bodied .active 2) z = []) ∧
      postJudgment (bodied .parked 2) (bodyOf (bodied .parked 2).xm 0) = .ok .procedure ∧
      (bodied .parked 2).mc.state ≠ .active :=
  ⟨takes_any rfl rfl, by decide, rfl, by rfl, trivial, by decide, by rfl, by decide⟩

theorem test_witness_RestoreEnd :
    (withRun .restore (some .auto) (running 5)).dc.run.state = .restore ∧
      (withRun .restore (some (.slot 7)) procedure).dc.run.origin = some (.slot 7) ∧
      (slotRec (withRun .restore (some (.slot 7)) procedure) 7).work = some { work with kind := .procedure } ∧
      (∀ hm days, ({ work with kind := .procedure } : Working).start ≠ .daily hm days) ∧
      State.reset.dc.run.state ≠ .restore := ⟨rfl, rfl, by decide, nofun, by decide⟩

theorem test_witness_RestoreEnd_daily :
    let w := { work with kind := .procedure, start := .daily 90 127 }
    let s := withRun .restore (some (.slot 7)) (withSlot 7 .active (some w) (running 5))
    s.dc.run.state = .restore ∧ s.dc.run.origin = some (.slot 7) ∧ (slotRec s 7).work = some w ∧
      w.start = .daily 90 127 ∧ w.retracted = false ∧ ({ w with retracted := true } : Working).retracted = true :=
  ⟨rfl, rfl, by decide, rfl, rfl, rfl⟩

theorem test_witness_FloorAndCeiling :
    ({ work with combine := .floor } : Working).combine = .floor ∧
      ({ work with combine := .ceiling } : Working).combine = .ceiling ∧ work.target ≤ 210 :=
  ⟨rfl, rfl, by decide⟩

theorem test_witness_Blend :
    ({ work with combine := .blend, alpha := some 15 } : Working).combine = .blend ∧
      ({ work with combine := .blend, alpha := some 15 } : Working).alpha = some 15 ∧
      0 ≤ ({ work with combine := .blend, alpha := some 15 } : Working).halfBand := ⟨rfl, rfl, by decide⟩

theorem test_witness_ComposedGoal :
    (∀ w ∈ [work, work], 0 ≤ w.halfBand) ∧ (zget (running 5).pu.zones .cab).limits = some cabLimits ∧
      ({ zget (running 5).pu.zones .cab with high := true } : ZoneProtect).high = true ∧
      ({ zget (running 5).pu.zones .cab with high := true } : ZoneProtect).low = false :=
  ⟨by decide, rfl, rfl, rfl⟩

/-- CAB with an entry, a measurement, and its states of protection. -/
def composed (p : ZoneProtect → ZoneProtect) : State :=
  { busyCab with
    mu := { MU.reset with channels := vset MU.reset.channels 0 ⟨some 210, 0, false, .online⟩ }
    pu := { busyCab.pu with zones := zset busyCab.pu.zones .cab (p (zget busyCab.pu.zones .cab)) } }

theorem test_witness_ComposedGoal_entries :
    busyCab.mc.config = some cfg ∧ measurement busyCab .cab = none ∧ measurement (composed id) .cab = some 210 ∧
      ((stackOf (composed id) .cab).filterMap fun i => (slotRec (composed id) i).work.map fun w => (i, w)) = [(3, work)] ∧
      (zget (composed id).pu.zones .cab).hard = false ∧ (zget (composed id).pu.zones .cab).high = false ∧
      (zget (composed id).pu.zones .cab).low = false ∧
      (zget (composed fun q => { q with hard := true, high := true }).pu.zones .cab).hard = true ∧ work.cls = .b ∧
      (zget (composed fun q => { q with low := true }).pu.zones .cab).low = true ∧
      stackOf (composed id) .berth = [] ∧ work.combine = .replace := by decide

theorem test_witness_Protection :
    (zget (running 5).pu.zones .cab).limits = some cabLimits ∧ (zget (running 5).pu.zones .cab).high = false ∧
      (zget (running 5).pu.zones .cab).low = false ∧ (zget (running 5).pu.zones .cab).hard = false := ⟨rfl, rfl, rfl, rfl⟩

theorem test_witness_Allowances :
    (zget (running 5).pu.zones .packA).limits = some (zget cfg.zones .packA).limits ∧
      (zget cfg.zones .packA).limits.softHi < (zget cfg.zones .packA).limits.hardHi ∧
      (zget cfg.zones .packA).limits.coldZero < (zget cfg.zones .packA).limits.coldFull := ⟨rfl, by decide, by decide⟩

theorem test_witness_Allowances_published :
    (zget (running 5).pu.zones .packA).limits = some (zget cfg.zones .packA).limits ∧
      0 ≤ (zget cfg.zones .packA).limits.riseStep ∧
      (Allowance.published ⟨0, 0⟩) < (evaluateCharge false 500 none (zget (running 5).pu.zones .packA) ⟨0, 0⟩).computed ∧
      (evaluateCharge false 500 none (zget (running 5).pu.zones .packA) ⟨0, 900⟩).computed ≤
        (Allowance.published ⟨0, 900⟩) := ⟨rfl, by decide, by decide, by decide⟩

theorem test_witness_Error : (∀ l h, ({ Composition.empty with lo := some 200, hi := some 210 } : Composition).lo = some l →
      ({ Composition.empty with lo := some 200, hi := some 210 } : Composition).hi = some h → l ≤ h) ∧
    (199 : Int) < 200 ∧ (210 : Int) < 211 :=
  ⟨fun l h hl hh => by cases hl; cases hh; decide, by decide, by decide⟩

theorem test_witness_PassNeverOverspends :
    checkRanges cfg = true ∧ 0 ≤ (running 5).be.frost ∧ (running 5).be.frost ≤ cfg.plant.frostLimit := by decide

/-- An account in which CAB wants heat and BERTH must shed it, both for recovery, radiating and every device. -/
def trading : Account :=
  let q := openAccount { Composition.empty with cls := some .b, weight := 4 } ⟨true, true, true, true, true, true⟩ 0
  { zones := zmk fun z =>
      if z = .cab then { q with d := 900, heat := 900 } else if z = .berth then { q with d := -600, cool := 600 } else q
    b := 4000, comp := 3000, heater := 1000, f := 100, compUse := 0, heatUse := 0, radiated := 0 }

theorem test_witness_Shares_demand :
    (demandOf (zget cfg.zones .cab) { Composition.empty with lo := some 200, cls := some .b, weight := 4 } ⟨0, false⟩
        0 0 (some 190)).error = some 10 ∧
      ({ Composition.empty with lo := some 200, cls := some .b, weight := 4 } : Composition).cls ≠ none ∧
      Composition.empty.cls = none ∧ (demandOf (zget cfg.zones .cab) Composition.empty ⟨0, false⟩ 0 0 (some 190)).error
        = some 0 ∧ 0 ≤ (zget cfg.zones .cab).imax ∧ (10 : Int).sign ≠ 0 := by decide

theorem test_witness_Shares_recovery :
    0 < cfg.plant.copr ∧ 0 ≤ trading.b ∧ 0 ≤ trading.comp ∧ 0 < (zget trading.zones .cab).d ∧
      (zget trading.zones .cab).paths.sink = true ∧ (zget trading.zones .berth).d < 0 ∧
      (zget trading.zones .berth).paths.source = true ∧ (zget trading.zones .packA).d = 0 ∧
      600 * 10 ≤ min trading.b trading.comp * cfg.plant.copr ∧ min 0 trading.comp * cfg.plant.copr < 600 * 10 := by decide

theorem test_witness_Shares_allot :
    let ms : List Member := [⟨.packA, 100, 15⟩, ⟨.packB, 10000, 1⟩]
    (0 : Int) ≤ 1000 ∧ (∀ m ∈ ms, 0 < m.request ∧ 1 ≤ m.weight) ∧ (ms.map Member.zone).Nodup ∧
      1000 < (ms.map Member.request).sum ∧ (ms.map Member.request).sum ≤ 10100 ∧
      (100 : Int) < 1000 * 15 * 100 / (15 * 100 + 1 * 10000) ∧ 1000 * 1 * 10000 / (15 * 100 + 1 * 10000) ≤ (10000 : Int) ∧
      (700 : Int) ≥ 1 * 4 * 700 / (4 * 700) ∧ (1 : Int) < 700 := by decide

theorem test_witness_Shares_steps :
    (0 : Int) < 25 ∧ (zget trading.zones .cab).cls = some .b ∧ 0 < (zget trading.zones .cab).heat ∧
      (zget trading.zones .cab).paths.pump = true ∧ (zget trading.zones .cab).paths.resistive = true ∧
      0 < (zget trading.zones .berth).cool ∧ (zget trading.zones .berth).paths.chill = true ∧
      (zget trading.zones .berth).paths.radiate = true := by decide

/-- A plant in which every device is available: an actuator for each, with HVOK and every designated channel. -/
def plentiful : State :=
  { running 5 with
    mc := { MC.reset with
      state := .active
      config := some { cfg with
        acts := vset (vset cfg.acts 0 { cfg.acts.get 0 with source := some .compressorLoad }) 1
          { cfg.acts.get 0 with source := some .heaterLoad, output := 1 }
        plant := { cfg.plant with radInlet := 0, ambient := 0, evapOutlet := 0 } } }
    mu := { MU.reset with
      channels := vset MU.reset.channels 0 ⟨some (-30), 0, false, .online⟩
      filters := ⟨⟨true, 0⟩, ⟨false, 0⟩, ⟨false, 0⟩⟩ } }

theorem test_witness_Shares_availability :
    let c := plentiful.mc.config.getD cfg
    accepted plentiful .hvok = true ∧ (c.acts.get 0).enable = true ∧ (c.acts.get 0).source = some .compressorLoad ∧
      (c.acts.get 1).enable = true ∧ (c.acts.get 1).source = some .heaterLoad ∧
      (plentiful.au.acts.get 0).latch = none ∧ plentiful.dc.run.state = .idle ∧
      channelValue plentiful c.plant.evapOutlet = some (-30) ∧ -30 < c.plant.frostTemp ∧ c.plant.hpMinAmb ≤ -30 ∧
      (computePass plentiful c).totals.pumpAvail = true ∧ (computePass plentiful c).totals.radAvail = true ∧
      channelValue (running 5) cfg.plant.evapOutlet = none ∧ (computePass (running 5) cfg).totals.compAvail = false := by
  decide

theorem test_witness_FaultByte :
    (running 5).mc.config = some cfg ∧ 255 < 256 ∧ NodeState.online ≠ .failed ∧ (cfg.acts.get 0).enable = true ∧
      (cfg.acts.get 0).node = 1 ∧ ((running 5).au.acts.get 0).latch = none ∧ 255 % 2 = 1 ∧ 254 % 4 = 2 ∧ 4 % 4 = 0 ∧
      (cfg.acts.get 11).enable = false :=
  ⟨rfl, by decide, by decide, by decide, by decide, by decide, by decide, by decide, by decide, by decide⟩

end Sys2Proof.Tests
end

section
/-! PROOFS. Host accesses of one word (chapter 1): what a read or write that the transaction has next does, and the
report and configuration areas settled from it. -/

namespace Sys2Proof.Machine

/-! ## One rule per command -/

/-- HOST_READ_WORD is dispatched to its meaning. -/
theorem exec_hostReadWord (a : Addr) (s : State) : exec (.hostReadWord a) s = execHostReadWord a s := by
  rfl

/-- HOST_WRITE_WORD is dispatched to its meaning. -/
theorem exec_hostWriteWord (a : Addr) (v : Word) (s : State) :
    exec (.hostWriteWord a v) s = execHostWriteWord a v s := by
  rfl

/-- A read that the transaction has next: the word goes out, and an invalid access is recorded. -/
theorem exec_hostReadWord_taken {a : Addr} {s : State} (h : portTakes .read a s) :
    exec (.hostReadWord a) s =
      .next (recordInvalid (readWord s a).2 a (accessed .read a (readWord s a).1 s)) := by
  rw [exec_hostReadWord, execHostReadWord, accessEvent_taken h]

/-- A write that the transaction has next: the ownership map takes the word once the access event is over. -/
theorem exec_hostWriteWord_taken {a : Addr} {s : State} (h : portTakes .write a s) (v : Word) :
    exec (.hostWriteWord a v) s = .next (writeWord a v (accessed .write a 0 s)) := by
  rw [exec_hostWriteWord, execHostWriteWord, accessEvent_taken h]

/-- A taken read that the map answers with a word and no record. -/
theorem exec_hostReadWord_valid {a : Addr} {s : State} {w : Word} (h : portTakes .read a s)
    (hw : readWord s a = (w, none)) : exec (.hostReadWord a) s = .next (accessed .read a w s) := by
  rw [exec_hostReadWord_taken h, hw, recordInvalid]

/-- A taken read that the map answers with a word and a kind of invalid access. -/
theorem exec_hostReadWord_invalid {a : Addr} {s : State} {w : Word} {k : AccessKind} (h : portTakes .read a s)
    (hw : readWord s a = (w, some k)) :
    exec (.hostReadWord a) s = .next (invalid k a (accessed .read a w s)) := by
  rw [exec_hostReadWord_taken h, hw, recordInvalid, recordAccess_eq]

/-! ## The report area (R13) -/

section Report
variable {a : Addr} {s : State} (l : 0x600 ≤ a.toNat) (u : a.toNat < 0x800)
include l u

theorem readWord_report_window (hp : s.pi.publication.isSome = true) :
    readWord s a = (0xFFFFFFFF, some .readInWindow) := by
  simp only [readWord, regionOf_report a l u, hp, if_true, windowWord]

theorem readWord_report_closed (hp : s.pi.publication = none) :
    readWord s a = (s.pi.report.getD (a.toNat - 0x600) 0, none) := by
  simp [readWord, regionOf_report a l u, hp]

theorem writeWord_report (v : Word) (t : State) : writeWord a v t = invalid .writeOwned a t := by
  simp only [writeWord, regionOf_report a l u, recordAccess_eq]

end Report

/-- Settles O17: the report area's three answers, each by the rule of its command. -/
theorem reportReadsAreGuardedByTheWindow : Obligations.ReportReadsAreGuardedByTheWindow := by
  intro a s l u
  refine ⟨fun h => ⟨fun hp => ?window, fun hp => ?closed⟩, fun h v => ?write⟩
  case window => exact exec_hostReadWord_invalid h (readWord_report_window l u hp)
  case closed => exact exec_hostReadWord_valid h (readWord_report_closed l u hp)
  case write => rw [exec_hostWriteWord_taken h, writeWord_report l u]

/-! ## The configuration area (R5) -/

theorem regionOf_config {a : Addr} (u : a.toNat < 0x200) : regionOf a = .config := by
  rw [regionOf_low a (by omega), if_pos u]

section Configuration
variable {a : Addr} (u : a.toNat < 0x200)
include u

theorem readWord_config (s : State) : readWord s a = (memRead s.xm a.toNat, none) := by
  simp only [readWord, regionOf_config u]

theorem writeWord_config_stored {s : State} (hs : s.mc.state = .unconfigured ∨ s.mc.state = .parked) (v : Word) :
    writeWord a v s = { s with xm := memWrite s.xm a.toNat v } := by
  simp only [writeWord, regionOf_config u, if_pos hs, storeWord]

theorem writeWord_config_frozen {s : State} (hs : s.mc.state ≠ .unconfigured ∧ s.mc.state ≠ .parked) (v : Word) :
    writeWord a v s = invalid .writeFrozen a s := by
  simp only [writeWord, regionOf_config u, if_neg (not_or.mpr hs), recordAccess_eq]

end Configuration

/-- Settles O19: an access event leaves the device state as it was, so the map's test on it decides the write. -/
theorem configurationAreaIsFrozenWhileRunning : Obligations.ConfigurationAreaIsFrozenWhileRunning := by
  intro a v s u
  refine ⟨fun h => ⟨fun hs => ?stored, fun hs => ?frozen⟩, fun h => ?read⟩
  case stored => rw [exec_hostWriteWord_taken h, writeWord_config_stored (s := accessed .write a 0 s) u hs]; rfl
  case frozen => rw [exec_hostWriteWord_taken h, writeWord_config_frozen (s := accessed .write a 0 s) u hs]
  case read => exact exec_hostReadWord_valid h (readWord_config u s)

end Sys2Proof.Machine
end

section
/-! PROOFS. RELEASE (R41): the rules of a slot action that the DU takes, of a slot summary bit and of a host write to
an EMPTY slot's body, and the statement about RELEASE settled from them. -/

namespace Sys2Proof.Machine

/-! ## A slot action that is taken (R35) -/

/-- The tests of R35, passed: the action's own effect follows. -/
theorem slotGate_taken {taken : SlotState → Bool} {n : Slot} {s : State} (hm : s.mc.state ≠ .unconfigured)
    (ht : taken (slotRec s n).state = true) (act : State → State) : slotGate taken n act s = act s := by
  rw [slotGate, if_neg hm, if_pos ht]

/-- RELEASE is dispatched to its meaning. -/
theorem exec_release (n : Slot) (s : State) : exec (.release n) s = execRelease n s := by
  rfl

/-- A RELEASE that the port takes, on an ENDED slot with a configuration in use. -/
theorem exec_release_ended {n : Slot} {s : State} (h : slotTakes n s) (hm : s.mc.state ≠ .unconfigured)
    (he : (slotRec s n).state = .ended) :
    exec (.release n) s = .next (takeRelease n (atSlotAction n 4 s)) := by
  have ended : ((slotRec (atSlotAction n 4 s) n).state == .ended) = true := beq_iff_eq.mpr he
  rw [exec_release, execRelease, slotCommand_taken h]
  exact congrArg _ (slotGate_taken (s := atSlotAction n 4 s) hm ended _)

/-- What RELEASE makes of the slot's record: EMPTY with result DONE, all else at its "0" value. -/
@[simp] theorem slotRec_takeRelease (n : Slot) (s : State) :
    slotRec (takeRelease n s) n = { SlotRec.empty with result := .done } :=
  slotRec_setSlot_self s n _

theorem slotState_takeRelease (n : Slot) (s : State) : (slotRec (takeRelease n s) n).state = .empty := by
  rw [slotRec_takeRelease, SlotRec.empty]

/-! ## The slot summary (R9) -/

/-- A sum of distinct powers of two is the number with those bits. -/
theorem sum_two_pow_eq_ofBits {n : Nat} (f : Fin n → Bool) :
    ((List.finRange n).map fun i => if f i then 2 ^ i.val else 0).sum = Nat.ofBits f := by
  induction n with
  | zero => rfl
  | succ n ih =>
    have shifted (i : Fin n) : (if f i.succ then 2 ^ i.succ.val else 0) = 2 * if f i.succ then 2 ^ i.val else 0 := by
      split <;> simp [pow_succ']
    rw [List.finRange_succ, List.map_cons, List.sum_cons, List.map_map, Nat.ofBits_succ]
    simp only [Function.comp_def, shifted, List.sum_map_mul_left, ih]
    cases f 0 <;> simp [add_comm]

/-- Bit n of a summary word says whether slot n is in the word's state. -/
theorem summaryWord_getLsbD (s : State) (st : SlotState) (n : Slot) :
    (summaryWord s st).getLsbD n.val = slotIs s st n := by
  have inWord : n.val < 32 := by omega
  rw [summaryWord, allSlots, sum_two_pow_eq_ofBits, natWord, BitVec.getLsbD_ofNat,
    Nat.testBit_ofBits_lt _ _ n.isLt, decide_eq_true inWord, Bool.true_and]

/-! ## A body word of an EMPTY slot (R7) -/

/-- A host write that the port takes, to a body word of an EMPTY slot: the word is stored. -/
theorem exec_hostWriteWord_body {n : Slot} {k : Nat} {s : State} (l : 1 ≤ k) (u : k ≤ 9)
    (h : portTakes .write (BitVec.ofNat 16 (0x300 + 16 * n.val + k)) s) (he : (slotRec s n).state = .empty)
    (v : Word) :
    exec (.hostWriteWord (BitVec.ofNat 16 (0x300 + 16 * n.val + k)) v) s = .next
      { accessed .write (BitVec.ofNat 16 (0x300 + 16 * n.val + k)) 0 s with
        xm := memWrite s.xm (0x300 + 16 * n.val + k) v } := by
  have addr : (BitVec.ofNat 16 (0x300 + 16 * n.val + k)).toNat = 0x300 + 16 * n.val + k := by
    rw [BitVec.toNat_ofNat, Nat.mod_eq_of_lt (by omega)]
  have stays (a : Addr) : (slotRec (accessed .write a 0 s) n).state = .empty := he
  rw [exec_hostWriteWord_taken h, writeWord, regionOf_slot _ n k (by omega) addr]
  simp only [writeSlotWord, if_neg (show k ≠ 0 by omega), if_pos (show k < 10 by omega), stays, if_true, storeWord,
    addr]
  rfl

/-! ## RELEASE (R41) -/

/-- After a RELEASE the transaction's next word is the first of the slot's body (R1). -/
theorem portTakes_body_after_release {n : Slot} {s : State} (h : slotTakes n s) :
    portTakes .write (BitVec.ofNat 16 (0x300 + 16 * n.val + 1)) (takeRelease n (atSlotAction n 4 s)) := by
  refine ⟨h.1, .inr ?_⟩
  rw [BitVec.ofNat_add]
  rfl

/-- Settles O37: the bit of the ENDED map and both body writes follow from the slot's new record, and the body and
amend words stand because the only word stored is the control word. -/
theorem releaseEmptiesTheSlot : Obligations.ReleaseEmptiesTheSlot := by
  intro n s h hm he
  refine ⟨_, exec_release_ended h hm he, rfl, ?bit, fun k l _ => ?words, fun v => ?next, fun k v l u => ?other⟩
  case bit => rw [summaryWord_getLsbD, slotIs, slotState_takeRelease]; rfl
  case words => exact memRead_write_other (by omega) 4
  case next =>
    exact exec_hostWriteWord_body le_rfl (by omega) (portTakes_body_after_release h) (slotState_takeRelease n _) v
  case other =>
    intro a begun
    have takes : portTakes .write a begun := ⟨h.1, .inl rfl⟩
    exact exec_hostWriteWord_body l u takes (slotState_takeRelease n _) v

end Sys2Proof.Machine
end

section
/-! PROOFS. The combine modes that act on part of the lower layer (chapter 4): what FLOOR, CEILING and BLEND do to a
side and to a band (R65 to R67), and the two statements about them settled from that. -/

namespace Sys2Proof.Machine

/-! ## One rule per combine mode -/

theorem applyEntry_floor {w : Working} (h : w.combine = .floor) (below : Band) :
    applyEntry w below = floorLayer w.target below := by
  rw [applyEntry, h]

theorem applyEntry_ceiling {w : Working} (h : w.combine = .ceiling) (below : Band) :
    applyEntry w below = ceilingLayer w.target below := by
  rw [applyEntry, h]

theorem applyEntry_blend {w : Working} {a : Nat} (h : w.combine = .blend) (ha : w.alpha = some a) (below : Band) :
    applyEntry w below = blendLayer a w.target w.halfBand below := by
  rw [applyEntry, h, ha, Option.getD_some]

/-! ## A side that a FLOOR raises or a CEILING lowers (R65, R66) -/

theorem raiseSide_some (v t : Int) : raiseSide (some v) t = max v t := rfl

theorem lowerSide_some (v t : Int) : lowerSide (some v) t = min v t := rfl

/-! ## FLOOR (R65) -/

theorem floorLayer_lo (t : Int) (below : Band) : (floorLayer t below).lo = some (raiseSide below.lo t) := rfl

/-- A crossing is won by the lo that the FLOOR has just made. -/
theorem floorLayer_hi {t lo : Int} {below : Band} (h : (floorLayer t below).lo = some lo) :
    (floorLayer t below).hi = below.hi.map fun hi => if hi < lo then lo else hi := by
  have made : raiseSide below.lo t = lo := Option.some.inj h
  simp only [floorLayer, made, max_def_lt]

theorem floorLayer_eq_self {t lo : Int} {below : Band} (hlo : below.lo = some lo) (ht : t ≤ lo)
    (ordered : ∀ hi, below.hi = some hi → lo ≤ hi) : floorLayer t below = below := by
  obtain ⟨_, hi⟩ := below
  subst hlo
  have stays : raiseSide (some lo) t = lo := max_eq_left ht
  cases hi with
  | none => simp only [floorLayer, stays, Option.map_none]
  | some hi => simp only [floorLayer, stays, Option.map_some, max_eq_left (ordered hi rfl)]

/-! ## CEILING (R66) -/

theorem ceilingLayer_hi (t : Int) (below : Band) : (ceilingLayer t below).hi = some (lowerSide below.hi t) := rfl

/-- A crossing is won by the hi that the CEILING has just made. -/
theorem ceilingLayer_lo {t hi : Int} {below : Band} (h : (ceilingLayer t below).hi = some hi) :
    (ceilingLayer t below).lo = below.lo.map fun lo => if hi < lo then hi else lo := by
  have made : lowerSide below.hi t = hi := Option.some.inj h
  simp only [ceilingLayer, made, min_comm _ hi, min_def_lt]

theorem ceilingLayer_eq_self {t hi : Int} {below : Band} (hhi : below.hi = some hi) (ht : hi ≤ t)
    (ordered : ∀ lo, below.lo = some lo → lo ≤ hi) : ceilingLayer t below = below := by
  obtain ⟨lo, _⟩ := below
  subst hhi
  have stays : lowerSide (some hi) t = hi := min_eq_left ht
  cases lo with
  | none => simp only [ceilingLayer, stays, Option.map_none]
  | some lo => simp only [ceilingLayer, stays, Option.map_some, min_eq_left (ordered lo rfl)]

/-- Settles O52: each clause is the rule of its layer, the side acted on being present or absent below. -/
theorem floorAndCeilingLayersWinCrossings : Obligations.FloorAndCeilingLayersWinCrossings := by
  refine ⟨fun w below hw => ?floor, fun w below hw => ?ceiling⟩
  case floor =>
    rw [applyEntry_floor hw]
    refine ⟨?side, fun lo h => ?crossing, fun lo hlo lo' h => ?raises, fun lo => floorLayer_eq_self⟩
    case side => rw [floorLayer_lo]; cases below.lo <;> rfl
    case crossing => rw [floorLayer_hi h]; cases below.hi <;> rfl
    case raises =>
      rw [floorLayer_lo, hlo, raiseSide_some] at h
      exact Option.some.inj h ▸ le_max_left lo w.target
  case ceiling =>
    rw [applyEntry_ceiling hw]
    refine ⟨?side, fun hi h => ?crossing, fun hi hhi hi' h => ?lowers, fun hi => ceilingLayer_eq_self⟩
    case side => rw [ceilingLayer_hi]; cases below.hi <;> rfl
    case crossing => rw [ceilingLayer_lo h]; cases below.lo <;> rfl
    case lowers =>
      rw [ceilingLayer_hi, hhi, lowerSide_some] at h
      exact Option.some.inj h ▸ min_le_left hi w.target

/-! ## A side that a BLEND moves (R67) -/

theorem blendSide_some (a : Nat) (l u : Int) : blendSide a (some l) u = l + Int.tdiv (a * (u - l)) 16 := rfl

/-- A side at or below its U moves up, and no further than U. -/
theorem blendSide_between_of_le {a : Nat} {l u : Int} (ha : a ≤ 16) (h : l ≤ u) :
    l ≤ blendSide a (some l) u ∧ blendSide a (some l) u ≤ u := by
  have forward : 0 ≤ (a : Int) * (u - l) := by nlinarith
  have short : (a : Int) * (u - l) ≤ 16 * (u - l) := by nlinarith
  rw [blendSide_some, Int.tdiv_eq_ediv_of_nonneg forward]
  omega

/-- A movement truncates toward zero, so it is the same in both directions. -/
theorem blendSide_neg (a : Nat) (l u : Int) : blendSide a (some (-l)) (-u) = -blendSide a (some l) u := by
  have reversed : (a : Int) * (-u - -l) = -(a * (u - l)) := by ring
  rw [blendSide_some, blendSide_some, reversed, Int.neg_tdiv, neg_add]

/-- A side at or above its U moves down, and no further than U. -/
theorem blendSide_between_of_ge {a : Nat} {l u : Int} (ha : a ≤ 16) (h : u ≤ l) :
    u ≤ blendSide a (some l) u ∧ blendSide a (some l) u ≤ l := by
  have mirrored := blendSide_between_of_le ha (neg_le_neg h)
  rw [blendSide_neg] at mirrored
  exact ⟨neg_le_neg_iff.mp mirrored.2, neg_le_neg_iff.mp mirrored.1⟩

/-- Two sides that move up: the gap between them closes by at most sixteen sixteenths. -/
theorem blendSide_mono_up {a : Nat} {l l' u u' : Int} (ha : a ≤ 16) (hl : l ≤ l') (hu : u ≤ u') (up : l ≤ u)
    (up' : l' ≤ u') : blendSide a (some l) u ≤ blendSide a (some l') u' := by
  have forward : 0 ≤ (a : Int) * (u - l) := by nlinarith
  have forward' : 0 ≤ (a : Int) * (u' - l') := by nlinarith
  have gap : (a : Int) * (u - l) ≤ a * (u' - l') + 16 * (l' - l) := by nlinarith
  rw [blendSide_some, blendSide_some, Int.tdiv_eq_ediv_of_nonneg forward, Int.tdiv_eq_ediv_of_nonneg forward']
  omega

/-- Sides in order that move toward targets in order stay in order. Where they move in different directions, the two
targets, or the two sides, stand between the results. -/
theorem blendSide_mono {a : Nat} {l l' u u' : Int} (ha : a ≤ 16) (hl : l ≤ l') (hu : u ≤ u') :
    blendSide a (some l) u ≤ blendSide a (some l') u' := by
  rcases le_total l u with up | down <;> rcases le_total l' u' with up' | down'
  · exact blendSide_mono_up ha hl hu up up'
  · calc blendSide a (some l) u ≤ u := (blendSide_between_of_le ha up).2
      _ ≤ u' := hu
      _ ≤ blendSide a (some l') u' := (blendSide_between_of_ge ha down').1
  · calc blendSide a (some l) u ≤ l := (blendSide_between_of_ge ha down).2
      _ ≤ l' := hl
      _ ≤ blendSide a (some l') u' := (blendSide_between_of_le ha up').1
  · have mirrored := blendSide_mono_up ha (neg_le_neg hl) (neg_le_neg hu) (neg_le_neg down') (neg_le_neg down)
    rwa [blendSide_neg, blendSide_neg, neg_le_neg_iff] at mirrored

/-! ## BLEND over a band (R67) -/

/-- Sides that do not cross are the layer's result. -/
theorem blendLayer_of_le {a : Nat} {t b : Int} {below : Band}
    (h : blendSide a below.lo (t - b) ≤ blendSide a below.hi (t + b)) :
    blendLayer a t b below = ⟨some (blendSide a below.lo (t - b)), some (blendSide a below.hi (t + b))⟩ :=
  if_pos h

/-- With hi taken from the entry, a crossing sets lo to it. -/
theorem blendLayer_hi_absent (a : Nat) (t b lo : Int) :
    blendLayer a t b ⟨some lo, none⟩ =
      ⟨some (if t + b < blendSide a (some lo) (t - b) then t + b else blendSide a (some lo) (t - b)),
        some (t + b)⟩ := by
  by_cases h : blendSide a (some lo) (t - b) ≤ t + b
  · rw [blendLayer_of_le h, if_neg (not_lt.mpr h)]; rfl
  · rw [if_pos (not_le.mp h)]; exact if_neg h

/-- With lo taken from the entry, a crossing sets hi to it. -/
theorem blendLayer_lo_absent (a : Nat) (t b hi : Int) :
    blendLayer a t b ⟨none, some hi⟩ =
      ⟨some (t - b),
        some (if blendSide a (some hi) (t + b) < t - b then t - b else blendSide a (some hi) (t + b))⟩ := by
  by_cases h : t - b ≤ blendSide a (some hi) (t + b)
  · rw [blendLayer_of_le (below := ⟨none, some hi⟩) h, if_neg (not_lt.mpr h)]; rfl
  · rw [if_pos (not_le.mp h)]; exact if_neg h

/-- Settles O53, by which sides are present below; with both, the sides keep their order because each moves toward
its own side of a band in order. -/
theorem blendLayerMovesTowardItsBand : Obligations.BlendLayerMovesTowardItsBand := by
  intro w a below hw hα _ ha hb u v r
  have ordered : u ≤ v := by omega
  have applied : r = blendLayer a w.target w.halfBand below := applyEntry_blend hw hα below
  have alpha : a ≤ 16 := by omega
  obtain ⟨l, h⟩ := below
  refine ⟨?absent, ?present, ?onlyLo, ?onlyHi⟩
  case absent =>
    rintro ⟨⟩ ⟨⟩
    exact applied.trans (blendLayer_of_le ordered)
  case present =>
    rintro lo hi ⟨⟩ ⟨⟩ h
    have uncrossed : blendSide a (some lo) u ≤ blendSide a (some hi) v := blendSide_mono alpha h ordered
    exact ⟨_, _, applied.trans (blendLayer_of_le uncrossed), rfl, rfl, uncrossed, blendSide_between_of_le alpha,
      blendSide_between_of_ge alpha, blendSide_between_of_le alpha, blendSide_between_of_ge alpha⟩
  case onlyLo =>
    rintro lo ⟨⟩ ⟨⟩
    exact applied.trans (blendLayer_hi_absent a w.target w.halfBand lo)
  case onlyHi =>
    rintro hi ⟨⟩ ⟨⟩
    exact applied.trans (blendLayer_lo_absent a w.target w.halfBand hi)

end Sys2Proof.Machine
end

section
/-!
PROOFS. A zone's error (chapter 8): the error of a measurement on each side of a goal and inside it, and the one that
a demand records.
-/
namespace Sys2Proof.Machine

/-! ## The error of a measurement against a goal (R133) -/

/-- Below lo, whatever hi is: lo is the side tested first. -/
theorem errorOf_below_lo {lo hi : Option Int} {l m : Int} (hlo : lo = some l) (h : m < l) : errorOf lo hi m = l - m := by
  subst hlo
  cases hi <;> exact if_pos h

/-- Above hi, where no lo stands above m. -/
theorem errorOf_above_hi {lo hi : Option Int} {u m : Int} (hhi : hi = some u) (reached : ∀ l, lo = some l → l ≤ m)
    (h : u < m) : errorOf lo hi m = u - m := by
  subst hhi
  cases lo with
  | none => exact if_pos h
  | some l => exact (if_neg (not_lt.mpr (reached l rfl))).trans (if_pos h)

/-- Inside the goal, an absent side being no bound. -/
theorem errorOf_inside {lo hi : Option Int} {m : Int} (reached : ∀ l, lo = some l → l ≤ m)
    (unpassed : ∀ u, hi = some u → m ≤ u) : errorOf lo hi m = 0 := by
  cases lo with
  | none =>
    cases hi with
    | none => rfl
    | some u => exact if_neg (not_lt.mpr (unpassed u rfl))
  | some l =>
    have notBelow : ¬ m < l := not_lt.mpr (reached l rfl)
    cases hi with
    | none => exact if_neg notBelow
    | some u => exact (if_neg notBelow).trans (if_neg (not_lt.mpr (unpassed u rfl)))

/-! ## The error that a demand records (R133, R134) -/

/-- A zone of no class records its error too. -/
@[simp] theorem demandOf_error (c : ZoneCfg) (g : Composition) (prev : Previous) (i ff : Int) (m : Option Int) :
    (demandOf c g prev i ff m).error = m.map (errorOf g.lo g.hi) := by
  cases m with
  | none => rfl
  | some v => exact apply_ite Demand.error .. |>.trans (ite_self _)

/-- Settles O57, by where the measurement stands; above hi it is above lo too, because the goal's sides are in order. -/
theorem errorIsTheDistanceToTheGoal : Obligations.ErrorIsTheDistanceToTheGoal := by
  intro c g prev i ff ordered
  simp only [demandOf_error, Option.map_some, Option.map_none, Option.some.injEq, and_true]
  refine fun m => ⟨fun l hlo below => ?below, fun u hhi above => ?above, errorOf_inside⟩
  case below => exact ⟨errorOf_below_lo hlo below, sub_pos.mpr below⟩
  case above =>
    have reached : ∀ l, g.lo = some l → l ≤ m := fun l hlo => (ordered l u hlo hhi).trans above.le
    exact ⟨errorOf_above_hi hhi reached above, sub_neg.mpr above⟩

end Sys2Proof.Machine
end

section
/-!
PROOFS. A DRIVE reply at the AU (chapter 9): the kind of a fault byte, the latch of an actuator that the reply judges,
and the records that the reply leaves as they were.
-/
namespace Sys2Proof.Machine

/-! ## The kind of a fault byte (R157) -/

theorem faultByteKind_zero : faultByteKind 0 = none := rfl

theorem faultByteKind_stall {b : Nat} (stall : b % 2 = 1) : faultByteKind b = some .stall := by
  have nonzero : b ≠ 0 := by omega
  simp [faultByteKind, nonzero, Nat.testBit_eq_decide_div_mod_eq, stall]

theorem faultByteKind_overtemp {b : Nat} (overtemp : b % 4 = 2) : faultByteKind b = some .overtemp := by
  have nonzero : b ≠ 0 := by omega
  have stallClear : b % 2 = 0 := by omega
  have overtempSet : b / 2 % 2 = 1 := by omega
  simp [faultByteKind, nonzero, Nat.testBit_eq_decide_div_mod_eq, stallClear, overtempSet]

theorem faultByteKind_nodeFault {b : Nat} (nonzero : b ≠ 0) (clear : b % 4 = 0) :
    faultByteKind b = some .nodeFault := by
  have stallClear : b % 2 = 0 := by omega
  have overtempClear : b / 2 % 2 = 0 := by omega
  simp [faultByteKind, nonzero, Nat.testBit_eq_decide_div_mod_eq, stallClear, overtempClear]

/-! ## The latch of a judged actuator (R157 to R159) -/

section Judged
variable {node : NodeState} {r : ActRec} (present : node ≠ .failed) (unlatched : r.latch = none)
include present unlatched

/-- The fault byte comes before TRACKING in R159's order, so its kind is the one recorded. -/
theorem judgeActuator_latch_of_fault {byte : Nat} {k : FaultKind} (fault : faultByteKind byte = some k)
    (values : List Nat) (a : ActCfg) : (judgeActuator (some (values, byte)) node a r).latch = some k := by
  simp only [judgeActuator, unlatched, firstFault, if_neg present, fault]

/-- With no fault byte, TRACKING is the only condition left. -/
theorem judgeActuator_latch_of_no_fault (values : List Nat) (a : ActCfg) :
    (judgeActuator (some (values, 0)) node a r).latch = some .tracking ∨
      (judgeActuator (some (values, 0)) node a r).latch = none := by
  simp only [judgeActuator, unlatched, firstFault, if_neg present, faultByteKind_zero]
  exact ite_eq_or_eq ..

end Judged

/-! ## The actuator records after a DRIVE reply (R156, R159) -/

theorem onEnabledActs_record {s : State} {c : Cfg} (hc : s.mc.config = some c) (f : ActCfg → ActRec → ActRec)
    (i : Fin 12) :
    (onEnabledActs f s).au.acts.get i =
      if (c.acts.get i).enable then f (c.acts.get i) (s.au.acts.get i) else s.au.acts.get i := by
  simp only [onEnabledActs, hc, onAu_au, vmap_get]

/-- FAULT and the path flags, where some latch is entered, change no record. -/
theorem takeDrive_acts (address : Nat) (reply : Option (List Nat × Nat)) (node : NodeState) (s : State) :
    (takeDrive address reply node s).au.acts =
      (onEnabledActs (fun a r => if a.node = address then judgeActuator reply node a r else r) s).au.acts := by
  rw [takeDrive]
  split <;> rfl

section Records
variable {s : State} {c : Cfg} {address : Nat} {i : Fin 12} (hc : s.mc.config = some c)
include hc

theorem takeDrive_record_on_node (enabled : (c.acts.get i).enable = true) (onNode : (c.acts.get i).node = address)
    (reply : Option (List Nat × Nat)) (node : NodeState) :
    (takeDrive address reply node s).au.acts.get i = judgeActuator reply node (c.acts.get i) (s.au.acts.get i) := by
  rw [takeDrive_acts, onEnabledActs_record hc, if_pos enabled, if_pos onNode]

theorem takeDrive_record_elsewhere (elsewhere : (c.acts.get i).enable = false ∨ (c.acts.get i).node ≠ address)
    (reply : Option (List Nat × Nat)) (node : NodeState) :
    (takeDrive address reply node s).au.acts.get i = s.au.acts.get i := by
  rw [takeDrive_acts, onEnabledActs_record hc]
  rcases elsewhere with disabled | offNode
  · rw [disabled, if_neg Bool.false_ne_true]
  · rw [if_neg offNode, ite_self]

end Records

/-- Settles O60: each enabled actuator of the node is judged by the same byte, so the byte's kind is its latch. -/
theorem faultByteSpeaksForTheWholeNode : Obligations.FaultByteSpeaksForTheWholeNode := by
  intro s c address byte values node hc _ present t
  refine ⟨fun i enabled onNode unlatched => ?_, fun i elsewhere => takeDrive_record_elsewhere hc elsewhere _ _⟩
  have record : t.au.acts.get i = judgeActuator (some (values, byte)) node (c.acts.get i) (s.au.acts.get i) :=
    takeDrive_record_on_node hc enabled onNode _ _
  have latchOfFault {k : FaultKind} (fault : faultByteKind byte = some k) : (t.au.acts.get i).latch = some k :=
    record ▸ judgeActuator_latch_of_fault present unlatched fault values _
  refine ⟨fun stall => latchOfFault (faultByteKind_stall stall),
    fun overtemp => latchOfFault (faultByteKind_overtemp overtemp),
    fun clear nonzero => latchOfFault (faultByteKind_nodeFault nonzero clear), fun zero => ?noFault⟩
  case noFault =>
    subst zero
    rw [record]
    rcases judgeActuator_latch_of_no_fault present unlatched values (c.acts.get i) with latch | latch <;> simp [latch]

end Sys2Proof.Machine
end

section
/-! PROOFS. Locked limits (R174 to R176). `limitsPart` gathers what chapter 10 lets only CONFIGURE, LOCK_LIMITS and the
resets change: every zone's limits in force and locked values. One lemma for each operation of the other blocks, and for
the PU's own evaluation, says that it keeps them; the commands are then settled from the few operations that do not. -/

namespace Sys2Proof.Machine

/-- Every zone's limits in force and locked values. -/
def limitsPart (s : State) (z : Zone) : Option Limits × Option Limits :=
  ((zget s.pu.zones z).limits, (zget s.pu.zones z).locked)

/-- A PU update keeps the part when it keeps both items of every zone. -/
theorem onPu_limits {f : PU → PU} {s : State}
    (h : ∀ z, (zget (f s.pu).zones z).limits = (zget s.pu.zones z).limits ∧
      (zget (f s.pu).zones z).locked = (zget s.pu.zones z).locked) : limitsPart (s.onPu f) = limitsPart s :=
  funext fun z => Prod.ext (h z).1 (h z).2

/-! ## Block updates, and the flags and records of the port (chapter 1) -/

@[simp] theorem onPi_limits (f : PI → PI) (s : State) : limitsPart (s.onPi f) = limitsPart s := rfl
@[simp] theorem onMc_limits (f : MC → MC) (s : State) : limitsPart (s.onMc f) = limitsPart s := rfl
@[simp] theorem onDu_limits (f : DU → DU) (s : State) : limitsPart (s.onDu f) = limitsPart s := rfl
@[simp] theorem onCc_limits (f : CC → CC) (s : State) : limitsPart (s.onCc f) = limitsPart s := rfl
@[simp] theorem onFlc_limits (f : FLC → FLC) (s : State) : limitsPart (s.onFlc f) = limitsPart s := rfl
@[simp] theorem onMu_limits (f : MU → MU) (s : State) : limitsPart (s.onMu f) = limitsPart s := rfl
@[simp] theorem onBe_limits (f : BE → BE) (s : State) : limitsPart (s.onBe f) = limitsPart s := rfl
@[simp] theorem onAu_limits (f : AU → AU) (s : State) : limitsPart (s.onAu f) = limitsPart s := rfl
@[simp] theorem onDc_limits (f : DC → DC) (s : State) : limitsPart (s.onDc f) = limitsPart s := rfl

@[simp] theorem raise_limits (f : CauseFlag) (s : State) : limitsPart (raise f s) = limitsPart s := rfl

@[simp] theorem raiseIf_limits (b : Bool) (f : CauseFlag) (s : State) : limitsPart (raiseIf b f s) = limitsPart s := by
  cases b <;> rfl

theorem clearCauses_limits (v : Word) (s : State) : limitsPart (clearCauses v s) = limitsPart s := rfl

theorem storeMask_limits (v : Word) (s : State) : limitsPart (storeMask v s) = limitsPart s := rfl

@[simp] theorem recordAction_limits (a : CtrlAction) (r : CtrlResult) (s : State) :
    limitsPart (recordAction a r s) = limitsPart s := rfl

@[simp] theorem beginTimed_limits (a : CtrlAction) (s : State) : limitsPart (beginTimed a s) = limitsPart s := rfl

@[simp] theorem completeTimed_limits (a : CtrlAction) (s : State) : limitsPart (completeTimed a s) = limitsPart s := rfl

theorem countTowardReport_limits (s : State) : limitsPart (countTowardReport s) = limitsPart s := by
  unfold countTowardReport
  split
  · rfl
  · split <;> rfl

@[simp] theorem publishFirst_limits (s : State) : limitsPart (publishFirst s) = limitsPart s := rfl

theorem completePublication_limits (s : State) : limitsPart (completePublication s) = limitsPart s := by
  unfold completePublication
  split <;> rfl

/-! ## The measurements (chapter 7) -/

@[simp] theorem onNodeChannels_limits (a : Nat) (f : ChannelCfg → ChannelRec → ChannelRec) (s : State) :
    limitsPart (onNodeChannels a f s) = limitsPart s := by
  unfold onNodeChannels
  split <;> rfl

@[simp] theorem ageChannels_limits (s : State) : limitsPart (ageChannels s) = limitsPart s := by
  unfold ageChannels
  split <;> rfl

@[simp] theorem parkChannels_limits (s : State) : limitsPart (parkChannels s) = limitsPart s := by
  unfold parkChannels
  split <;> rfl

@[simp] theorem recomputeMeasurements_limits (s : State) : limitsPart (recomputeMeasurements s) = limitsPart s := by
  simp only [recomputeMeasurements]
  split <;> simp

@[simp] theorem judgeCopy_limits (s : State) : limitsPart (judgeCopy s) = limitsPart s := by
  unfold judgeCopy
  split
  · split <;> rfl
  · rfl

/-! ## The defrost run (chapter 11) -/

@[simp] theorem onRun_limits (f : RunRec → RunRec) (s : State) : limitsPart (onRun f s) = limitsPart s := rfl

@[simp] theorem meltTest_limits (s : State) : limitsPart (meltTest s) = limitsPart s := by
  unfold meltTest
  split <;> rfl

@[simp] theorem enterMelt_limits (s : State) : limitsPart (enterMelt s) = limitsPart s := by
  simp only [enterMelt]
  split <;> rfl

@[simp] theorem abortRun_limits (c : AbortCause) (s : State) : limitsPart (abortRun c s) = limitsPart s := by
  unfold abortRun
  split
  · rfl
  · split <;> rfl
  all_goals rfl

@[simp] theorem startProcedureRun_limits (n : Slot) (b : Bool) (s : State) :
    limitsPart (startProcedureRun n b s) = limitsPart s := by
  simp only [startProcedureRun]
  split
  · rfl
  · exact abortRun_limits _ _

@[simp] theorem reportSuspension_limits (s : State) : limitsPart (reportSuspension s) = limitsPart s := by
  unfold reportSuspension
  split <;> rfl

@[simp] theorem suspendRun_limits (p : RememberedPhase) (s : State) : limitsPart (suspendRun p s) = limitsPart s := by
  simp only [suspendRun]
  split <;> simp

@[simp] theorem suspendTest_limits (b : Bool) (s : State) : limitsPart (suspendTest b s) = limitsPart s := by
  simp only [suspendTest]
  repeat' split
  all_goals simp

@[simp] theorem autoRequest_limits (s : State) : limitsPart (autoRequest s) = limitsPart s := by
  unfold autoRequest
  split
  · rfl
  · split <;> rfl

theorem prepareEnds_limits (s : State) : limitsPart (prepareEnds s) = limitsPart s := by
  simp only [prepareEnds]
  split
  · simp
  · split
    · rfl
    all_goals simp

@[simp] theorem quiesceRun_limits (s : State) : limitsPart (quiesceRun s) = limitsPart s := by
  unfold quiesceRun
  split <;> rfl

/-! ## The directives (chapter 3) -/

@[simp] theorem setSlot_limits (i : Slot) (r : SlotRec) (s : State) : limitsPart (setSlot i r s) = limitsPart s := rfl

@[simp] theorem mapSlot_limits (i : Slot) (f : SlotRec → SlotRec) (s : State) :
    limitsPart (mapSlot i f s) = limitsPart s := rfl

@[simp] theorem setResult_limits (r : SlotResult) (i : Slot) (s : State) :
    limitsPart (setResult r i s) = limitsPart s := rfl

@[simp] theorem joinWait_limits (z : Zone) (r : Reason) (i : Slot) (s : State) :
    limitsPart (joinWait z r i s) = limitsPart s := rfl

@[simp] theorem fillZone_limits (z : Zone) (n : Nat) (s : State) : limitsPart (fillZone z n s) = limitsPart s := by
  induction n generalizing s with
  | zero => rfl
  | succ n ih =>
    unfold fillZone
    split
    · rfl
    · split
      · exact ih _
      · rfl

theorem fillZones_limits (n : Nat) (l : List Zone) (s : State) :
    limitsPart (l.foldl (fun t z => fillZone z n t) s) = limitsPart s :=
  foldl_keeps limitsPart _ (fun t z => fillZone_limits z n t) l s

@[simp] theorem refill_limits (s : State) : limitsPart (refill s) = limitsPart s := by
  unfold refill
  split
  · exact fillZones_limits _ _ s
  · rfl

theorem takeNewcomer_limits (z : Zone) (s : State) (i : Slot) : limitsPart (takeNewcomer z s i) = limitsPart s := by
  simp only [takeNewcomer]
  repeat' split
  all_goals rfl

theorem placeZone_limits (l : List Slot) (s : State) (z : Zone) : limitsPart (placeZone l s z) = limitsPart s :=
  (foldl_keeps limitsPart _ (takeNewcomer_limits z) _ _).trans (fillZone_limits z _ s)

@[simp] theorem endSlot_limits (o : Outcome) (i : Slot) (s : State) : limitsPart (endSlot o i s) = limitsPart s :=
  raiseIf_limits _ _ _

@[simp] theorem endDirective_limits (o : Outcome) (i : Slot) (s : State) :
    limitsPart (endDirective o i s) = limitsPart s := by
  unfold endDirective
  split
  · split
    · rfl
    · exact endSlot_limits o i s
  · exact endSlot_limits o i s

theorem takeEnd_limits (m : Bool) (s : State) (i : Slot) : limitsPart (takeEnd m s i) = limitsPart s := by
  unfold takeEnd
  split <;> simp

theorem metEvaluation_limits (s : State) (i : Slot) : limitsPart (metEvaluation s i) = limitsPart s := by
  simp only [metEvaluation]
  split
  · rfl
  · split <;> rfl

theorem growCounts_limits (s : State) : limitsPart (growCounts s) = limitsPart s := by
  unfold growCounts
  exact foldl_keeps limitsPart _ (fun t i => setSlot_limits i _ t) _ s

@[simp] theorem wakeAssert_limits (w : Working) (s : State) : limitsPart (wakeAssert w s) = limitsPart s := by
  unfold wakeAssert
  split
  · rfl
  · split <;> rfl

@[simp] theorem handToDefrost_limits (w : Working) (i : Slot) (s : State) :
    limitsPart (handToDefrost w i s) = limitsPart s := by
  simp only [handToDefrost]
  split <;> simp

theorem becomeDue_limits (w : Working) (i : Slot) (s : State) : limitsPart (becomeDue w i s).1 = limitsPart s := by
  simp only [becomeDue]
  repeat' split
  all_goals simp

theorem takeStart_limits (m : Bool) (acc : State × List Slot) (i : Slot) :
    limitsPart (takeStart m acc i).1 = limitsPart acc.1 := by
  simp only [takeStart]
  split
  · split
    · exact becomeDue_limits _ i acc.1
    · rfl
  · rfl

@[simp] theorem evaluate_limits (m : Bool) (l : List Slot) (s : State) : limitsPart (evaluate m l s) = limitsPart s := by
  have met : limitsPart (l.foldl metEvaluation s) = limitsPart s := foldl_keeps limitsPart _ metEvaluation_limits l s
  have ended (t : State) : limitsPart (l.foldl (takeEnd m) t) = limitsPart t :=
    foldl_keeps limitsPart _ (takeEnd_limits m) l t
  have started (a : State × List Slot) : limitsPart (l.foldl (takeStart m) a).1 = limitsPart a.1 :=
    foldl_keeps (fun a : State × List Slot => limitsPart a.1) _ (takeStart_limits m) l a
  have placed (n : List Slot) (t : State) : limitsPart (allZones.foldl (placeZone n) t) = limitsPart t :=
    foldl_keeps limitsPart _ (placeZone_limits n) allZones t
  simp only [evaluate]
  split
  · exact (placed _ _).trans ((started _).trans ((ended _).trans met))
  · exact (started _).trans ((ended _).trans met)

@[simp] theorem scheduleEvaluation_limits (m : Bool) (s : State) :
    limitsPart (scheduleEvaluation m s) = limitsPart s := by
  cases m with
  | false => exact evaluate_limits false _ s
  | true => exact (evaluate_limits true _ _).trans (growCounts_limits s)

/-- Changing the slots that a test names, one after another, keeps the part when each change does. -/
theorem foldSlots_limits {p : State → Slot → Bool} {f : State → Slot → State}
    (h : ∀ t i, limitsPart (f t i) = limitsPart t) (l : List Slot) (s : State) :
    limitsPart (l.foldl (fun t i => if p t i then f t i else t) s) = limitsPart s :=
  foldl_keeps limitsPart _ (fun t i => by split; exacts [h t i, rfl]) l s

@[simp] theorem parkDirectives_limits (s : State) : limitsPart (parkDirectives s) = limitsPart s := by
  simp only [parkDirectives]
  exact (foldSlots_limits (fun t i => mapSlot_limits i _ t) _ _).trans
    (foldl_keeps limitsPart _ (fun _ z => foldl_keeps limitsPart _ (fun t i => joinWait_limits z _ i t) _ _) _ s)

@[simp] theorem placeParked_limits (s : State) : limitsPart (placeParked s) = limitsPart s := by
  simp only [placeParked]
  exact (foldSlots_limits (fun t i => mapSlot_limits i _ t) _ _).trans (fillZones_limits _ _ s)

@[simp] theorem quiesceDirectives_limits (s : State) : limitsPart (quiesceDirectives s) = limitsPart s :=
  foldSlots_limits (fun t i => endSlot_limits _ i t) _ s

@[simp] theorem endUnwoken_limits (s : State) : limitsPart (endUnwoken s) = limitsPart s :=
  foldSlots_limits (fun t i => endSlot_limits _ i t) _ s

theorem settleSlot_limits (u : Zones (Option Int)) (s : State) (i : Slot) :
    limitsPart (settleSlot u s i) = limitsPart s := by
  simp only [settleSlot]
  repeat' split
  all_goals simp

@[simp] theorem settledEvaluation_limits (u : Zones (Option Int)) (s : State) :
    limitsPart (settledEvaluation u s) = limitsPart s :=
  (refill_limits _).trans (foldl_keeps limitsPart _ (settleSlot_limits u) _ s)

theorem restoreEnds_limits (s : State) : limitsPart (restoreEnds s) = limitsPart s := by
  simp only [restoreEnds, reportRunEnd]
  repeat' split
  all_goals simp

theorem takePost_limits (i : Slot) (s : State) : limitsPart (takePost i s) = limitsPart s := by
  simp only [takePost]
  split <;> simp

theorem takeAmend_limits (i : Slot) (s : State) : limitsPart (takeAmend i s) = limitsPart s := by
  unfold takeAmend
  split
  · rfl
  · split <;> rfl

theorem takeRetract_limits (i : Slot) (s : State) : limitsPart (takeRetract i s) = limitsPart s := by
  simp only [takeRetract]
  repeat' split
  all_goals simp

theorem takeRelease_limits (i : Slot) (s : State) : limitsPart (takeRelease i s) = limitsPart s := rfl

theorem slotGate_limits {act : State → State} (h : ∀ t, limitsPart (act t) = limitsPart t) (k : SlotState → Bool)
    (i : Slot) (s : State) : limitsPart (slotGate k i act s) = limitsPart s := by
  unfold slotGate
  split
  · rfl
  · split
    · exact h s
    · rfl

theorem slotAction_limits (i : Slot) (v : Word) (s : State) : limitsPart (slotAction i v s) = limitsPart s := by
  unfold slotAction
  split
  · exact slotGate_limits (takePost_limits i) ..
  · exact slotGate_limits (takeAmend_limits i) ..
  · exact slotGate_limits (takeRetract_limits i) ..
  · exact slotGate_limits (takeRelease_limits i) ..
  · split <;> rfl

theorem writeControl_limits (i : Slot) (v : Word) (s : State) : limitsPart (writeControl i v s) = limitsPart s := by
  simp only [writeControl]
  split
  · rfl
  · exact slotAction_limits i v _

/-! ## The evaluation of the PU and the pass (chapters 8 and 10) -/

theorem evaluateZone_limits (first : Bool) (fb : Int) (m : Option Int) (p : ZoneProtect) :
    (evaluateZone first fb m p).limits = p.limits ∧ (evaluateZone first fb m p).locked = p.locked := by
  unfold evaluateZone
  split
  · exact ⟨rfl, rfl⟩
  · split <;> exact ⟨rfl, rfl⟩

@[simp] theorem protectionEvaluation_limits (s : State) : limitsPart (protectionEvaluation s) = limitsPart s := by
  unfold protectionEvaluation
  split
  · rfl
  · simp only [raiseIf_limits]
    exact onPu_limits fun z => by simpa only [evaluatedPu, zget_zmk] using evaluateZone_limits ..

@[simp] theorem formZoneStates_limits (s : State) : limitsPart (formZoneStates s) = limitsPart s :=
  onPu_limits fun z => by simp

@[simp] theorem markFirstPass_limits (b : Bool) (s : State) : limitsPart (markFirstPass b s) = limitsPart s := rfl

@[simp] theorem startPass_limits (s : State) : limitsPart (startPass s) = limitsPart s := by
  unfold startPass
  split
  · rfl
  · exact formZoneStates_limits _

/-! ## The actuators (chapter 9) -/

@[simp] theorem onEnabledActs_limits (f : ActCfg → ActRec → ActRec) (s : State) :
    limitsPart (onEnabledActs f s) = limitsPart s := by
  unfold onEnabledActs
  split <;> rfl

@[simp] theorem computeCommands_limits (r : PassResult) (s : State) :
    limitsPart (computeCommands r s) = limitsPart s := by
  unfold computeCommands
  split
  · rfl
  · exact onEnabledActs_limits _ s

@[simp] theorem recomputePaths_limits (s : State) : limitsPart (recomputePaths s) = limitsPart s := rfl

@[simp] theorem takeDrive_limits (a : Nat) (r : Option (List Nat × Nat)) (n : NodeState) (s : State) :
    limitsPart (takeDrive a r n s) = limitsPart s := by
  simp only [takeDrive]
  split <;> simp

/-! ## The field link and the device states (chapters 2 and 6) -/

@[simp] theorem setDevice_limits (d : DeviceState) (s : State) : limitsPart (setDevice d s) = limitsPart s := rfl

@[simp] theorem setTimer_limits (t : Option Nat) (s : State) : limitsPart (setTimer t s) = limitsPart s := rfl

@[simp] theorem setLock_limits (l : LockState) (s : State) : limitsPart (setLock l s) = limitsPart s := rfl

@[simp] theorem setWork_limits (w : LinkWork) (s : State) : limitsPart (setWork w s) = limitsPart s := rfl

@[simp] theorem setAfter_limits (a : AfterWork) (s : State) : limitsPart (setAfter a s) = limitsPart s := rfl

@[simp] theorem freshRound_limits (s : State) : limitsPart (freshRound s) = limitsPart s := rfl

@[simp] theorem dueAtCursor_limits (s : State) : limitsPart (dueAtCursor s) = limitsPart s := rfl

@[simp] theorem beginBreak_limits (s : State) : limitsPart (beginBreak s) = limitsPart s := rfl

@[simp] theorem recordCarried_limits (s : State) (x : Exchange) : limitsPart (recordCarried s x) = limitsPart s := by
  unfold recordCarried
  split
  · exact onEnabledActs_limits _ s
  · rfl

theorem requestStarts_limits (s : State) : limitsPart (requestStarts s) = limitsPart s := by
  unfold requestStarts
  split <;> simp

theorem requestEnds_limits (s : State) : limitsPart (requestEnds s) = limitsPart s := by
  unfold requestEnds
  split <;> rfl

theorem startBitBegins_limits (s : State) : limitsPart (startBitBegins s) = limitsPart s := by
  unfold startBitBegins
  split <;> rfl

@[simp] theorem afterChannelEvent_limits (s : State) : limitsPart (afterChannelEvent s) = limitsPart s :=
  (meltTest_limits _).trans (recomputeMeasurements_limits s)

theorem handResults_limits (x : Exchange) (r : ExchangeResult) (s : State) :
    limitsPart (handResults x r s) = limitsPart s := by
  simp only [handResults, takeSample]
  split <;> simp

@[simp] theorem activeEntry_limits (s : State) : limitsPart (activeEntry s) = limitsPart s := by
  simp [activeEntry]

@[simp] theorem parkedEntry_limits (a : CtrlAction) (s : State) : limitsPart (parkedEntry a s) = limitsPart s := by
  simp [parkedEntry]

@[simp] theorem recoveryTest_limits (b : Bool) (s : State) : limitsPart (recoveryTest b s) = limitsPart s := by
  simp only [recoveryTest, afterRound]
  repeat' split
  all_goals rfl

@[simp] theorem sweepComplete_limits (s : State) : limitsPart (sweepComplete s) = limitsPart s := by
  simp only [sweepComplete]
  repeat' split
  all_goals simp

@[simp] theorem beginSweep_limits (s : State) : limitsPart (beginSweep s) = limitsPart s := by
  unfold beginSweep
  split <;> simp

@[simp] theorem beginFirstSweep_limits (s : State) : limitsPart (beginFirstSweep s) = limitsPart s :=
  beginSweep_limits _

@[simp] theorem afterExchange_limits (s : State) : limitsPart (afterExchange s) = limitsPart s := by
  simp only [afterExchange]
  repeat' split
  all_goals simp

@[simp] theorem exchangeEnds_limits (r : ExchangeResult) (s : State) :
    limitsPart (exchangeEnds r s) = limitsPart s := by
  unfold exchangeEnds
  split
  · rfl
  · exact (afterExchange_limits _).trans ((handResults_limits ..).trans (raiseIf_limits ..))

theorem replyArrives_limits (data : Byte) (mark stop : Bool) (s : State) :
    limitsPart (replyArrives data mark stop s) = limitsPart s := by
  unfold replyArrives replyFails
  split
  · rfl
  · split <;> simp
  · rfl

theorem windowCloses_limits (s : State) : limitsPart (windowCloses s) = limitsPart s := by
  unfold windowCloses
  split <;> simp

theorem gapTooLong_limits (s : State) : limitsPart (gapTooLong s) = limitsPart s := by
  unfold gapTooLong
  split <;> rfl

theorem errorWaitEnds_limits (s : State) : limitsPart (errorWaitEnds s) = limitsPart s := by
  unfold errorWaitEnds
  split <;> simp

theorem breakEnds_limits (s : State) : limitsPart (breakEnds s) = limitsPart s := by
  unfold breakEnds
  split <;> rfl

theorem preambleEnds_limits (s : State) : limitsPart (preambleEnds s) = limitsPart s := by
  unfold preambleEnds
  repeat' split
  all_goals simp

@[simp] theorem requestBreak_limits (s : State) : limitsPart (requestBreak s) = limitsPart s := by
  unfold requestBreak
  split <;> rfl

@[simp] theorem linkAtParking_limits (s : State) : limitsPart (linkAtParking s) = limitsPart s := by
  unfold linkAtParking
  repeat' split
  all_goals rfl

@[simp] theorem linkAtQuiescing_limits (s : State) : limitsPart (linkAtQuiescing s) = limitsPart s := by
  unfold linkAtQuiescing
  split <;> simp

theorem startingEntry_limits (s : State) : limitsPart (startingEntry s) = limitsPart s := by
  simp only [startingEntry]
  split <;> simp [setCommandsToRest]

theorem parkingEntry_limits (s : State) : limitsPart (parkingEntry s) = limitsPart s := by
  simp [parkingEntry, aimAtRest, clearDegraded, quietBalance]

theorem quiescingEntry_limits (s : State) : limitsPart (quiescingEntry s) = limitsPart s := by
  simp [quiescingEntry, aimAtRest, setCommandsToRest, clearDegraded, quietBalance]

@[simp] theorem agePeriod_limits (s : State) : limitsPart (agePeriod s) = limitsPart s :=
  (afterChannelEvent_limits _).trans (ageChannels_limits s)

@[simp] theorem cutSweep_limits (s : State) : limitsPart (cutSweep s) = limitsPart s := by
  unfold cutSweep countOverrun
  repeat' split
  all_goals rfl

@[simp] theorem activePeriod_limits (s : State) : limitsPart (activePeriod s) = limitsPart s := by
  simp [activePeriod]

@[simp] theorem parkingPeriod_limits (s : State) : limitsPart (parkingPeriod s) = limitsPart s := by
  simp only [parkingPeriod]
  split <;> simp [stepCommandsToRest]

theorem timerExpires_limits (s : State) : limitsPart (timerExpires s) = limitsPart s := by
  unfold timerExpires
  repeat' split
  all_goals simp

theorem writeCommit_limits (v : Word) (s : State) : limitsPart (writeCommit v s) = limitsPart s := by
  unfold writeCommit lockCommit
  split
  · exact activePeriod_limits _
  · rfl

theorem sweepAtPass_limits (s : State) : limitsPart (sweepAtPass s) = limitsPart s := by
  unfold sweepAtPass
  split <;> simp

theorem defrostAtPass_limits (r : PassResult) (s : State) : limitsPart (defrostAtPass r s) = limitsPart s := by
  simp only [defrostAtPass]
  split <;> simp

theorem passCompletes_limits (s : State) : limitsPart (passCompletes s) = limitsPart s := by
  unfold passCompletes
  split
  · rfl
  · simp [defrostAtPass_limits, sweepAtPass_limits, countTowardReport_limits, takeResults]

/-! ## The clock, the line filters and the timers (chapters 5, 7 and 11) -/

@[simp] theorem beginRewrite_limits (s : State) : limitsPart (beginRewrite s) = limitsPart s := rfl

@[simp] theorem minuteEvent_limits (s : State) : limitsPart (minuteEvent s) = limitsPart s :=
  scheduleEvaluation_limits true _

theorem rollover_limits (s : State) : limitsPart (rollover s) = limitsPart s := by
  simp only [rollover]
  repeat' split
  all_goals simp

theorem takeTimeSet_limits (s : State) : limitsPart (takeTimeSet s) = limitsPart s := by
  simp only [takeTimeSet]
  split <;> simp

theorem takeTimeNudge_limits (s : State) : limitsPart (takeTimeNudge s) = limitsPart s := by
  simp only [takeTimeNudge]
  repeat' split
  all_goals simp

theorem wakeExpires_limits (s : State) : limitsPart (wakeExpires s) = limitsPart s := by
  unfold wakeExpires
  split <;> simp

theorem grantExpires_limits (s : State) : limitsPart (grantExpires s) = limitsPart s := by
  unfold grantExpires
  split <;> rfl

theorem sampleLine_limits (l : Line) (b : Bool) (s : State) : limitsPart (sampleLine l b s) = limitsPart s := by
  simp only [sampleLine, lineAccepted]
  repeat' split
  all_goals simp

theorem prepareExpires_limits (s : State) : limitsPart (prepareExpires s) = limitsPart s := by
  unfold prepareExpires
  split
  · exact prepareEnds_limits s
  · rfl

theorem meltExpires_limits (s : State) : limitsPart (meltExpires s) = limitsPart s := by
  unfold meltExpires
  split <;> rfl

theorem dripExpires_limits (s : State) : limitsPart (dripExpires s) = limitsPart s := by
  unfold dripExpires
  split <;> rfl

theorem restoreExpires_limits (s : State) : limitsPart (restoreExpires s) = limitsPart s := by
  unfold restoreExpires
  split
  · exact restoreEnds_limits s
  · rfl

theorem suspendExpires_limits (s : State) : limitsPart (suspendExpires s) = limitsPart s := by
  unfold suspendExpires
  split <;> simp

/-! ## The CTRL actions that keep every limit (R20 to R26, R108, R160) -/

theorem takeModeActive_limits (s : State) : limitsPart (takeModeActive s) = limitsPart s := by
  unfold takeModeActive
  split
  · exact startingEntry_limits s
  · rfl

theorem takeModeParked_limits (s : State) : limitsPart (takeModeParked s) = limitsPart s := by
  unfold takeModeParked
  split
  · exact parkingEntry_limits s
  · rfl

theorem takeQuiesce_limits (s : State) : limitsPart (takeQuiesce s) = limitsPart s := by
  unfold takeQuiesce
  split
  · exact quiescingEntry_limits s
  · rfl

theorem takeLinkReset_limits (s : State) : limitsPart (takeLinkReset s) = limitsPart s := by
  simp only [takeLinkReset]
  repeat' split
  all_goals simp [resetNodesHanded, handUnknownToActs, handUnknownToChannels, resetNodes]

theorem takeClearFaults_limits (s : State) : limitsPart (takeClearFaults s) = limitsPart s := rfl

/-! ## Locked limits are held -/

/-- Between two states each locked zone keeps its locked values and, where the limits in force equal them, those. -/
def LocksHeld (s t : State) : Prop :=
  ∀ z l, (zget s.pu.zones z).locked = some l →
    (zget t.pu.zones z).locked = some l ∧ ((zget s.pu.zones z).limits = some l → (zget t.pu.zones z).limits = some l)

theorem LocksHeld.of_limits {s t : State} (h : limitsPart t = limitsPart s) : LocksHeld s t := by
  intro z l locked
  obtain ⟨inForce, kept⟩ := Prod.ext_iff.mp (congrFun h z)
  exact ⟨kept.trans locked, fun equal => inForce.trans equal⟩

theorem LocksHeld.refl (s : State) : LocksHeld s s := .of_limits rfl

/-- LOCK_LIMITS records limits in an unlocked zone only (R175). -/
theorem takeLockLimits_locksHeld (p : CtrlParam) (s : State) : LocksHeld s (takeLockLimits p s) := by
  unfold takeLockLimits
  split
  · exact .of_limits rfl
  · intro z l locked
    simp [lockZones, recordAction, locked]

/-- PORT_RESET puts the locked values in force, and no other limits (R30, R174, R176). -/
theorem resetBlocks_limits (s : State) (z : Zone) :
    limitsPart (resetBlocks s) z = ((limitsPart s z).2, (limitsPart s z).2) := by
  simp [limitsPart, resetBlocks, resetProtection, resetDirectives]

theorem takePortReset_locksHeld (s : State) : LocksHeld s (takePortReset s) := by
  intro z l locked
  obtain ⟨inForce, kept⟩ := Prod.ext_iff.mp (resetBlocks_limits s z)
  exact ⟨kept.trans locked, fun _ => inForce.trans locked⟩

/-! ## CONFIGURE (R28, R29, R176) -/

/-- A CONFIGURE that passes puts the configured limits in force and leaves every lock as it stands (R163, R176). -/
theorem commitConfiguration_limits (c : Cfg) (s : State) (z : Zone) :
    limitsPart (commitConfiguration c s) z = (some (zget c.zones z).limits, (limitsPart s z).2) := by
  have putLimits_limits (t : State) :
      limitsPart (putLimits c t) z = (some (zget c.zones z).limits, (limitsPart t z).2) := by
    simp [limitsPart, putLimits]
  simp [commitConfiguration, putLimits_limits, configureActs, capFrost, clearChannels, resetNodes]

theorem checkLocks_iff (p : PU) (c : Cfg) :
    checkLocks p c = true ↔ ∀ z l, (zget p.zones z).locked = some l → (zget c.zones z).limits = l := by
  simp only [checkLocks, List.all_eq_true, mem_allZones, true_implies]
  refine forall_congr' fun z => ?_
  cases (zget p.zones z).locked <;> simp

/-- The last check's failure refuses the area, with its own code or with an earlier check's (R28). -/
theorem configureRefusal_of_checkLocks {p : PU} {c : Cfg} (h : checkLocks p c = false) :
    ∃ code, configureRefusal p c = some code ∧
      (code = .lockedLimits ∨ checkRanges c = false ∨ checkAddresses c = false ∨ checkReferences c = false) := by
  unfold configureRefusal
  cases ranges : checkRanges c
  · simp
  cases addresses : checkAddresses c
  · simp
  cases references : checkReferences c <;> simp [h]

theorem configureRefusal_eq_none_iff (p : PU) (c : Cfg) :
    configureRefusal p c = none ↔
      checkRanges c = true ∧ checkAddresses c = true ∧ checkReferences c = true ∧ checkLocks p c = true := by
  unfold configureRefusal
  split_ifs <;> simp_all

section Taken
variable {s : State} (rests : s.mc.state = .unconfigured ∨ s.mc.state = .parked)
include rests

theorem takeConfigure_refused {code : CtrlResult} (h : configureRefusal s.pu (cfgOfArea s.xm) = some code) :
    takeConfigure s = answered .configure code s := by
  simp only [takeConfigure, if_pos rests, h, recordAction_eq]

theorem takeConfigure_passed (h : configureRefusal s.pu (cfgOfArea s.xm) = none) :
    takeConfigure s = recordAction .configure .done (commitConfiguration (cfgOfArea s.xm) s) := by
  simp only [takeConfigure, if_pos rests, h]

end Taken

/-- Check 4 is what holds the locks: limits that pass it equal the locked values. -/
theorem takeConfigure_locksHeld (s : State) : LocksHeld s (takeConfigure s) := by
  by_cases rests : s.mc.state = .unconfigured ∨ s.mc.state = .parked
  case neg => rw [takeConfigure, if_neg rests]; exact .of_limits rfl
  cases checked : configureRefusal s.pu (cfgOfArea s.xm) with
  | some code => rw [takeConfigure_refused rests checked]; exact .of_limits rfl
  | none =>
    rw [takeConfigure_passed rests checked]
    obtain ⟨-, -, -, locks⟩ := (configureRefusal_eq_none_iff _ _).mp checked
    intro z l locked
    obtain ⟨inForce, kept⟩ := Prod.ext_iff.mp (commitConfiguration_limits (cfgOfArea s.xm) s z)
    have equal : (zget (cfgOfArea s.xm).zones z).limits = l := (checkLocks_iff _ _).mp locks z l locked
    exact ⟨kept.trans locked, fun _ => inForce.trans (congrArg some equal)⟩

/-! ## Host writes and every command -/

theorem busyGate_locksHeld {act : State → State} (h : ∀ t, LocksHeld t (act t)) (a : CtrlAction) (s : State) :
    LocksHeld s (busyGate a act s) := by
  unfold busyGate
  split
  · exact .of_limits rfl
  · exact h s

theorem accessEvent_locksHeld {act : State → State} (h : ∀ t, LocksHeld t (act t)) (d : Direction) (a : Addr)
    (out : Word) (s : State) : LocksHeld s (accessEvent d a out act s) := by
  unfold accessEvent
  split
  · exact h (s.onPi _)
  · exact .refl s

theorem slotCommand_locksHeld {act : State → State} (h : ∀ t, limitsPart (act t) = limitsPart t) (n : Slot)
    (code : Nat) (k : SlotState → Bool) (s : State) : LocksHeld s (slotCommand n code (slotGate k n act) s) :=
  accessEvent_locksHeld (fun t => .of_limits (slotGate_limits h k n (storeWord _ _ t))) _ _ _ s

theorem takeAction_locksHeld (a : CtrlAction) (p : CtrlParam) (s : State) : LocksHeld s (takeAction a p s) := by
  cases a with
  | configure => exact takeConfigure_locksHeld s
  | portReset => exact takePortReset_locksHeld s
  | lockLimits => exact takeLockLimits_locksHeld p s
  | modeActive => exact .of_limits (takeModeActive_limits s)
  | modeParked => exact .of_limits (takeModeParked_limits s)
  | quiesce => exact .of_limits (takeQuiesce_limits s)
  | linkReset => exact .of_limits (takeLinkReset_limits s)
  | clearFaults => exact .of_limits (takeClearFaults_limits s)
  | timeSet => exact .of_limits (takeTimeSet_limits s)
  | timeNudge => exact .of_limits (takeTimeNudge_limits s)

theorem ctrlCommand_locksHeld (a : CtrlAction) (p : CtrlParam) (s : State) :
    LocksHeld s (ctrlCommand a p (takeAction a p) s) :=
  accessEvent_locksHeld (fun t => busyGate_locksHeld (takeAction_locksHeld a p) a (storeCtrl (ctrlWordOf a p) t)) _ _ _ s

theorem writeCtrl_locksHeld (v : Word) (s : State) : LocksHeld s (writeCtrl v s) := by
  simp only [writeCtrl]
  split
  · exact .of_limits rfl
  · split
    · exact .of_limits rfl
    · exact busyGate_locksHeld (takeAction_locksHeld _ _) _ (storeCtrl v s)

theorem writeSlotWord_limits (n : Slot) (k : Nat) (a : Addr) (v : Word) (s : State) :
    limitsPart (writeSlotWord n k a v s) = limitsPart s := by
  unfold writeSlotWord
  split
  · exact writeControl_limits n v s
  · repeat' split
    all_goals rfl

/-- A host write that is not to CTRL keeps every limit; one to CTRL is an action at its owner. -/
theorem writeWord_locksHeld (a : Addr) (v : Word) (s : State) : LocksHeld s (writeWord a v s) := by
  unfold writeWord
  cases regionOf a with
  | ctrl => exact writeCtrl_locksHeld v s
  | slot n k => exact .of_limits (writeSlotWord_limits n k a v s)
  | commitWord => exact .of_limits (writeCommit_limits v s)
  | config => dsimp only; split <;> exact .of_limits rfl
  | _ => exact .of_limits rfl

theorem beginTransaction_limits (s : State) : limitsPart (beginTransaction s) = limitsPart s := by
  unfold beginTransaction
  split <;> rfl

theorem takeCommandByte_limits (b : Byte) (s : State) : limitsPart (takeCommandByte b s) = limitsPart s := by
  unfold takeCommandByte
  split <;> rfl

theorem recordInvalid_limits (k : Option AccessKind) (a : Addr) (s : State) :
    limitsPart (recordInvalid k a s) = limitsPart s := by
  cases k <;> rfl

/-- Every command but a power-on reset holds the locks (R176). -/
theorem exec_locksHeld {c : Instr} {s t : State} (hc : c ≠ .powerOnReset) (h : exec c s = .next t) :
    LocksHeld s t := by
  cases c <;> cases h
  case powerOnReset => exact absurd rfl hc
  case badCommand b => exact .of_limits (takeCommandByte_limits b s)
  case transactionEnd => exact .of_limits rfl
  case hostReadWord a => exact accessEvent_locksHeld (fun t => .of_limits (recordInvalid_limits _ a t)) _ _ _ s
  case hostWriteWord a v => exact accessEvent_locksHeld (writeWord_locksHeld a v) _ _ _ s
  case commit v => exact accessEvent_locksHeld (fun t => .of_limits (writeCommit_limits v t)) _ _ _ s
  case causeWrite v => exact accessEvent_locksHeld (fun t => .of_limits (clearCauses_limits v t)) _ _ _ s
  case cmaskWrite v => exact accessEvent_locksHeld (fun t => .of_limits (storeMask_limits v t)) _ _ _ s
  case unknownAction v => exact accessEvent_locksHeld (writeCtrl_locksHeld v) _ _ _ s
  case modeActive p => exact ctrlCommand_locksHeld .modeActive p s
  case modeParked p => exact ctrlCommand_locksHeld .modeParked p s
  case quiesce p => exact ctrlCommand_locksHeld .quiesce p s
  case configure p => exact ctrlCommand_locksHeld .configure p s
  case portReset p => exact ctrlCommand_locksHeld .portReset p s
  case linkReset p => exact ctrlCommand_locksHeld .linkReset p s
  case clearFaults p => exact ctrlCommand_locksHeld .clearFaults p s
  case lockLimits p => exact ctrlCommand_locksHeld .lockLimits p s
  case timeSet p => exact ctrlCommand_locksHeld .timeSet p s
  case timeNudge p => exact ctrlCommand_locksHeld .timeNudge p s
  case post n => exact slotCommand_locksHeld (takePost_limits n) n _ _ s
  case amend n => exact slotCommand_locksHeld (takeAmend_limits n) n _ _ s
  case retract n => exact slotCommand_locksHeld (takeRetract_limits n) n _ _ s
  case release n => exact slotCommand_locksHeld (takeRelease_limits n) n _ _ s
  case slotUnknownAction n v => exact accessEvent_locksHeld (fun t => .of_limits (writeControl_limits n v t)) _ _ _ s
  case secondRollover => exact .of_limits (rollover_limits s)
  case clockPageRewriteCompletion => exact .of_limits rfl
  case wakeTimeout => exact .of_limits (wakeExpires_limits s)
  case periodExpiry => exact .of_limits (timerExpires_limits s)
  case passCompletion => exact .of_limits (passCompletes_limits s)
  case publicationCompletion => exact .of_limits (completePublication_limits s)
  case grantTimeout => exact .of_limits (grantExpires_limits s)
  case lineSample l b => exact .of_limits (sampleLine_limits l b s)
  case requestStart => exact .of_limits (requestStarts_limits s)
  case replyCharacter d m b => exact .of_limits (replyArrives_limits d m b s)
  case replyWindowExpiry => exact .of_limits (windowCloses_limits s)
  case gapTimeout => exact .of_limits (gapTooLong_limits s)
  case lineIdle => exact .of_limits (errorWaitEnds_limits s)
  case errorBound => exact .of_limits (errorWaitEnds_limits s)
  case breakCompletion => exact .of_limits (breakEnds_limits s)
  case preambleCompletion => exact .of_limits (preambleEnds_limits s)
  case prepareEnd => exact .of_limits (prepareExpires_limits s)
  case meltTimeLimit => exact .of_limits (meltExpires_limits s)
  case dripEnd => exact .of_limits (dripExpires_limits s)
  case restoreEnd => exact .of_limits (restoreExpires_limits s)
  case suspendTimeLimit => exact .of_limits (suspendExpires_limits s)
  case ssnFall => exact .of_limits (beginTransaction_limits s)
  case resetnRelease => exact .of_limits rfl
  case requestLastStopBitEnd => exact .of_limits (requestEnds_limits s)
  case startBit => exact .of_limits (startBitBegins_limits s)

/-! ## The statement -/

/-- CONFIGURE at a port that takes it, with BUSY clear: the MC acts at once. -/
theorem exec_configure_idle {s : State} (h : ctrlTakes s) (idle : s.pi.busy = false) (p : CtrlParam) :
    exec (.configure p) s = .next (takeConfigure (atAction 3 p s)) := by
  have gate : busyGate .configure takeConfigure (atAction 3 p s) = takeConfigure (atAction 3 p s) := by
    have idle' : (atAction 3 p s).pi.busy = false := idle
    rw [busyGate, idle', Bool.false_and, if_neg Bool.false_ne_true]
  rw [← gate]
  exact congrArg _ (ctrlCommand_taken h .configure p takeConfigure)

/-- PORT_RESET at a port that takes it, which BUSY does not refuse. -/
theorem exec_portReset_taken {s : State} (h : ctrlTakes s) (p : CtrlParam) :
    exec (.portReset p) s = .next (resetBlocks (atAction 5 p s)) := by
  have gate : busyGate .portReset takePortReset (atAction 5 p s) = resetBlocks (atAction 5 p s) := by
    simp [busyGate, takenWhileBusy, takePortReset]
  rw [← gate]
  exact congrArg _ (ctrlCommand_taken h .portReset p takePortReset)

/-- Settles O9: the commands hold the locks because only CONFIGURE, LOCK_LIMITS and PORT_RESET touch `limitsPart`; the
checks of CONFIGURE decide what it puts in force, and the two resets are evaluated zone by zone. -/
theorem lockedLimitsAreHeldUntilPowerOn : Obligations.LockedLimitsAreHeldUntilPowerOn := by
  refine ⟨fun c s t z l hc h locked => exec_locksHeld hc h z l locked, fun p s z l h idle rests locked => ?configure,
    fun p s h => ?portReset, fun s => ⟨_, rfl, fun z => ?powerOn⟩⟩
  case configure =>
    rw [exec_configure_idle h idle]
    refine ⟨fun differs => ?refused, fun ranges addresses references locks => ?passed⟩
    case refused =>
      have fails : checkLocks s.pu (cfgOfArea s.xm) = false :=
        Bool.eq_false_iff.mpr fun locks => differs ((checkLocks_iff _ _).mp locks z l locked)
      obtain ⟨code, refusal, cause⟩ := configureRefusal_of_checkLocks fails
      exact ⟨code, congrArg _ (takeConfigure_refused (s := atAction 3 p s) rests refusal), cause⟩
    case passed =>
      have checked : configureRefusal s.pu (cfgOfArea s.xm) = none :=
        (configureRefusal_eq_none_iff _ _).mpr ⟨ranges, addresses, references, locks⟩
      refine ⟨_, rfl, ?_, (checkLocks_iff _ _).mp locks z l locked⟩
      rw [takeConfigure_passed (s := atAction 3 p s) rests checked]
      exact congrArg Prod.fst (commitConfiguration_limits (cfgOfArea s.xm) (atAction 3 p s) z)
  case portReset =>
    exact ⟨_, exec_portReset_taken h p, fun z => congrArg Prod.fst (resetBlocks_limits (atAction 5 p s) z)⟩
  case powerOn => cases z <;> exact ⟨rfl, rfl⟩

end Sys2Proof.Machine
end
